-- ==== Sys2Proof/Word.lean ====
section
/-! DEFINITION. The two word types of the core (R6): 8-bit data and 16-bit addresses. -/

namespace Sys2Proof

/-- A datum: A, X, Y, SP, P and every byte on the bus (R6: data width 8 bits). -/
abbrev Byte := BitVec 8

/-- An address or the program counter (R6: address and PC width 16 bits). -/
abbrev Word := BitVec 16

end Sys2Proof
end

