-- ==== Sys2Proof/Config.lean ====
section
/-! DEFINITION. The parameters of R6 that are fixed for one machine. -/

namespace Sys2Proof.Config

/-- What a byte of memory reads as that nothing has written and that `busInput` does not answer.
The spec leaves the bus's answers open (R52).
DESIGN CHOICE, unsafe: log entry 4. -/
def unlistedByte : Byte := 0x00#8

/-- `MAGIC_ANE` of R6 and R423: "`0xEE` here". Log entry 13. -/
def magicAne : Byte := 0xEE#8

/-- `MAGIC_LXA` of R6 and R424, the spec's own decision D8. Log entry 13. -/
def magicLxa : Byte := 0xEE#8

end Sys2Proof.Config
end

