-- ==== Sys2Proof/Machine/State.lean ====
section
/-! DEFINITION. The state of the machine: the record of R20, the memory behind the bus, the bus log of
the last step (R11) and the outside world's answers to the reads to come. All of it is plain data. -/

namespace Sys2Proof.Machine

/-- The direction of a bus access (R11). -/
inductive Dir where
  | read
  | write
deriving DecidableEq, Repr

/-- One bus access: the event `(address, value, direction)` of R11. -/
structure BusEvent where
  addr : Word
  value : Byte
  dir : Dir
deriving DecidableEq, Repr

/-- The memory behind the bus, as a list of (address, byte) pairs in one canonical form
(`Memory.wf` in Machine/Ops.lean). One address space of 65,536 bytes (R51). -/
abbrev Memory := List Host.Cell

/-- The state of the core and of what stands behind its bus. -/
structure State where
  /-- accumulator (R21) -/
  a : Byte
  /-- index register X (R22) -/
  x : Byte
  /-- index register Y (R22) -/
  y : Byte
  /-- stack pointer; the stack is page $01 (R23) -/
  sp : Byte
  /-- processor status, bits C Z I D B U V N from bit 0 to bit 7 (R24) -/
  p : Byte
  /-- program counter (R31) -/
  pc : Word
  /-- set by STP, cleared by `reset()` (R33) -/
  halted : Bool
  /-- the NMI edge latch (R36) -/
  pendingNmi : Bool
  /-- the IRQ level input (R37) -/
  pendingIrq : Bool
  /-- the plain memory behind the bus (R50, R51); not core state (R20) -/
  mem : Memory
  /-- MODEL'S OWN FIELD: what the outside world answers to the bus reads to come, oldest first.
  It stands for the parameter `Bus` of R52 (an oracle that may return any byte): a read whose entry is
  `some v` returns `v`; a read whose entry is `none`, or that finds the list empty, returns the
  plain memory's byte. Log entry 3. -/
  busInput : List (Option Byte)
  /-- the bus log (R11): the accesses of the last step or `reset()`, oldest first. Log entry 6. -/
  log : List BusEvent
deriving DecidableEq, Repr

/-- The faults of the machine. There is none: "A model has no fault outcome for any instruction of this
core" (R500), so the type has no constructor. Safe: nothing can claim a fault. -/
inductive Fault : Type
deriving DecidableEq, Repr

/-- Why an instruction is refused. -/
inductive Refusal where
  /-- Raised by an arm of `exec` whose instruction has no meaning yet; no arm raises it now. Safe: the
  machine stops where the hardware goes on. -/
  | notModelled (mnemonic : String)
deriving DecidableEq, Repr

/-- The machine when it is created, before its first `reset()` (R41, R553). The spec leaves every field but
P.B and P.U a draw; these are the draws of the programs of 95_test_vectors.md.
DESIGN CHOICE, unsafe: log entries 1, 2 and 3. -/
def State.powerOn : State where
  a := 0x00#8
  x := 0x00#8
  y := 0x00#8
  sp := 0x00#8
  p := 0x30#8
  pc := 0x0000#16
  halted := false
  pendingNmi := false
  pendingIrq := false
  mem := []
  busInput := []
  log := []

/-- The machine right after reset: `State.powerOn` after one `reset()` (R550, R554; proved in
Laws/Ops.lean). SP = $00 - 3, I = 1, PC the content of $FFFC/$FFFD in a memory that lists nothing, the
bus log `reset()`'s two reads (R551). The other registers: DESIGN CHOICE, unsafe, log entry 1. -/
def State.reset : State where
  a := 0x00#8
  x := 0x00#8
  y := 0x00#8
  sp := 0xFD#8
  p := 0x34#8
  pc := 0x0000#16
  halted := false
  pendingNmi := false
  pendingIrq := false
  mem := []
  busInput := []
  log := [⟨0xFFFC#16, 0x00#8, .read⟩, ⟨0xFFFD#16, 0x00#8, .read⟩]

end Sys2Proof.Machine
end

