-- ==== Sys2Proof/Machine/Flags.lean ====
section
/-! DEFINITION. The status register P and the ALU (40_status_alu.md). The functions here work on
register values alone; P is passed in and the new P is passed out. -/

namespace Sys2Proof.Machine

/-- The flags of P (R24). -/
inductive Flag where
  /-- carry, bit 0 (R25) -/
  | c
  /-- zero, bit 1 (R26) -/
  | z
  /-- interrupt disable, bit 2 (R28) -/
  | i
  /-- decimal, bit 3 (R29) -/
  | d
  /-- break, bit 4 (R27) -/
  | b
  /-- unused, bit 5 (R27) -/
  | u
  /-- overflow, bit 6 (R30) -/
  | v
  /-- negative, bit 7 (R26) -/
  | n
deriving DecidableEq, Repr

/-- The place of a flag in P, from bit 0 to bit 7 (R24). -/
def Flag.bit : Flag → Nat
  | .c => 0
  | .z => 1
  | .i => 2
  | .d => 3
  | .b => 4
  | .u => 5
  | .v => 6
  | .n => 7

/-- The byte with only that flag's bit set. -/
def Flag.mask : Flag → Byte
  | .c => 0x01#8
  | .z => 0x02#8
  | .i => 0x04#8
  | .d => 0x08#8
  | .b => 0x10#8
  | .u => 0x20#8
  | .v => 0x40#8
  | .n => 0x80#8

/-- The value of flag `f` in the status byte `p`. -/
def getFlag (f : Flag) (p : Byte) : Bool := p.getLsbD f.bit

/-- The status byte `p` with flag `f` set to `on` and every other bit as it was. -/
def setFlag (f : Flag) (on : Bool) (p : Byte) : Byte :=
  if on then p ||| f.mask else p &&& ~~~f.mask

/-- `set_nz` (R100): N is bit 7 of `v`, Z is whether `v` is 0. -/
def setNz (v p : Byte) : Byte := setFlag .n (v.getLsbD 7) (setFlag .z (v == 0) p)

/-- `push_repr` (R101): the byte a push of P writes, U forced to 1 and B to the caller's choice. -/
def pushRepr (b : Bool) (p : Byte) : Byte := if b then p ||| 0x30 else (p &&& 0xEF) ||| 0x20

/-- `pull_repr` (R102): the P that a pulled byte `v` gives; B and U keep their values. -/
def pullRepr (v p : Byte) : Byte := (v &&& 0xCF) ||| (p &&& 0x30)

/-- The carry of `p` as a number, 0 or 1. -/
def carryIn (p : Byte) : Nat := (getFlag .c p).toNat

/-- `adc` (R103): A plus `val` plus carry, with the new P. The sum is exact; the stored byte is its low 8
bits. D is not read (R114). -/
def adcAlu (a val p : Byte) : Byte × Byte :=
  let sum := a.toNat + val.toNat + carryIn p
  let r := BitVec.ofNat 8 sum
  let overflow := ((a ^^^ r) &&& (val ^^^ r) &&& 0x80) != 0
  (r, setNz r (setFlag .v overflow (setFlag .c (decide (sum > 0xFF)) p)))

/-- `sbc` (R104): "equivalent to `ADC(val XOR 0xFF)`". -/
def sbcAlu (a val p : Byte) : Byte × Byte := adcAlu a (val ^^^ 0xFF) p

/-- `compare` (R105): the P that comparing `reg` with `val` gives. -/
def compareFlags (reg val p : Byte) : Byte :=
  setNz (reg - val) (setFlag .c (decide (val.toNat ≤ reg.toNat)) p)

/-- `asl` (R106). -/
def aslAlu (v p : Byte) : Byte × Byte :=
  let r := v <<< 1
  (r, setNz r (setFlag .c (v.getLsbD 7) p))

/-- `lsr` (R107). -/
def lsrAlu (v p : Byte) : Byte × Byte :=
  let r := v >>> 1
  (r, setNz r (setFlag .c (v.getLsbD 0) p))

/-- `rol` (R108): the previous carry enters at bit 0. -/
def rolAlu (v p : Byte) : Byte × Byte :=
  let r := (v <<< 1) ||| (if getFlag .c p then 0x01 else 0x00)
  (r, setNz r (setFlag .c (v.getLsbD 7) p))

/-- `ror` (R109): the previous carry enters at bit 7. -/
def rorAlu (v p : Byte) : Byte × Byte :=
  let r := (v >>> 1) ||| (if getFlag .c p then 0x80 else 0x00)
  (r, setNz r (setFlag .c (v.getLsbD 0) p))

/-- `inc` with its flags (R110). -/
def incAlu (v p : Byte) : Byte × Byte := (v + 1, setNz (v + 1) p)

/-- `dec` with its flags (R110). -/
def decAlu (v p : Byte) : Byte × Byte := (v - 1, setNz (v - 1) p)

/-- `bit` (R112): Z from `a & val`, N and V from bits 7 and 6 of `val`. -/
def bitFlags (a val p : Byte) : Byte :=
  setFlag .v (val.getLsbD 6) (setFlag .n (val.getLsbD 7) (setFlag .z ((a &&& val) == 0) p))

/-- ANC (R420): A and `val`, N copied into C. -/
def ancAlu (a val p : Byte) : Byte × Byte :=
  let r := a &&& val
  (r, setFlag .c (r.getLsbD 7) (setNz r p))

/-- ALR (R421): `lsr` of A and `val`. -/
def alrAlu (a val p : Byte) : Byte × Byte := lsrAlu (a &&& val) p

/-- ARR (R422): A and `val` rotated right through carry, then C = bit 6 and V = bit 6 xor bit 5 of the
result. -/
def arrAlu (a val p : Byte) : Byte × Byte :=
  let t := a &&& val
  let r := (t >>> 1) ||| (if getFlag .c p then 0x80 else 0x00)
  (r, setFlag .v (r.getLsbD 6 ^^ r.getLsbD 5) (setFlag .c (r.getLsbD 6) (setNz r p)))

/-- The value of ANE (R423). -/
def aneValue (a x val : Byte) : Byte := (a ||| Config.magicAne) &&& x &&& val

/-- The value of LXA (R424). -/
def lxaValue (a val : Byte) : Byte := (a ||| Config.magicLxa) &&& val

/-- SBX (R425): `a & x` minus `val`, C = no borrow, N and Z from the difference; the incoming carry is not
used. -/
def sbxAlu (a x val p : Byte) : Byte × Byte :=
  let t := a &&& x
  (t - val, setNz (t - val) (setFlag .c (decide (val.toNat ≤ t.toNat)) p))

end Sys2Proof.Machine
end

