-- ==== Sys2Proof/Machine/Ops.lean ====
section
/-! DEFINITION. The operations everything else is built from: the memory list, the bus, the stack,
taking an interrupt and returning from one, and the host's calls. -/

namespace Sys2Proof.Machine

/-! ### Words and bytes (R7) -/

/-- `hi:lo`, the 16-bit value of two bytes. -/
def word (hi lo : Byte) : Word := hi ++ lo

/-- `lo(v)`, bits 7..0. -/
def loByte (v : Word) : Byte := v.extractLsb' 0 8

/-- `hi(v)`, bits 15..8. -/
def hiByte (v : Word) : Byte := v.extractLsb' 8 8

/-- `zext_16(v)`: also the zero-page address of the byte `v` (R75). -/
def zext16 (v : Byte) : Word := v.setWidth 16

/-- `sext_16(v)`. -/
def sext16 (v : Byte) : Word := v.signExtend 16

/-! ### The memory list -/

/-- The byte at an address: the listed one, or `Config.unlistedByte` where none is listed. -/
def Memory.read : Memory → Nat → Byte
  | [], _ => Config.unlistedByte
  | (k, v) :: m, a => if k = a then v else Memory.read m a

/-- The memory with no entry for address `a`. -/
def Memory.erase : Memory → Nat → Memory
  | [], _ => []
  | (k, w) :: m, a => if k = a then Memory.erase m a else (k, w) :: Memory.erase m a

/-- The memory with the entry `(a, v)` put before the first entry of a higher address. -/
def Memory.insert : Memory → Nat → Byte → Memory
  | [], a, v => [(a, v)]
  | (k, w) :: m, a, v => if a < k then (a, v) :: (k, w) :: m else (k, w) :: Memory.insert m a v

/-- The memory with the byte at address `a` set to `v`, in canonical form: writing what an unlisted
address reads as removes the entry. -/
def Memory.write (m : Memory) (a : Nat) (v : Byte) : Memory :=
  if v = Config.unlistedByte then Memory.erase m a else Memory.insert (Memory.erase m a) a v

/-- The canonical form from address `low` up: addresses strictly rising and inside the address space
(R51), no entry equal to what an unlisted address reads as. -/
def Memory.wfFrom : Nat → Memory → Bool
  | _, [] => true
  | low, (k, v) :: m =>
    decide (low ≤ k) && decide (k < 65536) && (v != Config.unlistedByte) && Memory.wfFrom (k + 1) m

/-- The canonical form of a memory: equal memories are equal lists. -/
def Memory.wf (m : Memory) : Bool := Memory.wfFrom 0 m

/-- The byte of plain memory at an address, with no bus access. -/
def State.byteAt (s : State) (addr : Word) : Byte := Memory.read s.mem addr.toNat

/-! ### The bus (R9, R10, R50 to R52) -/

/-- What the bus answers to the next read, if it is at `addr`: the outside world's answer where it gives
one, else the byte of plain memory. -/
def busAnswer (addr : Word) (s : State) : Byte :=
  match s.busInput with
  | some v :: _ => v
  | _ => s.byteAt addr

/-- A bus access that read `v` at `addr`: it uses up one entry of `busInput` and is logged (R9). -/
def noteRead (addr : Word) (v : Byte) (s : State) : State :=
  { s with busInput := s.busInput.tail, log := s.log ++ [⟨addr, v, .read⟩] }

/-- `MemRead(addr, 1)` (R9): one bus read, its value and the state after it. -/
def busRead (addr : Word) (s : State) : Byte × State :=
  (busAnswer addr s, noteRead addr (busAnswer addr s) s)

/-- `DummyRead(addr)` (R10): a real read whose value is discarded. -/
def dummyRead (addr : Word) (s : State) : State := (busRead addr s).2

/-- `MemWrite(addr, 1, v)` (R10): one bus write; it always succeeds (R52). -/
def busWrite (addr : Word) (v : Byte) (s : State) : State :=
  { s with mem := Memory.write s.mem addr.toNat v, log := s.log ++ [⟨addr, v, .write⟩] }

/-! ### Fetching (R131, R472) -/

/-- `fetch8()` (R131): read the byte at PC and advance PC, wrapping (R32). -/
def fetch8 (s : State) : Byte × State :=
  let r := busRead s.pc s
  (r.1, { r.2 with pc := s.pc + 1 })

/-- The `fetch8()` of an operand byte `v` that the instruction holds already: the same access and the same
advance of PC. Log entry 7. -/
def fetchOperand (v : Byte) (s : State) : State := { noteRead s.pc v s with pc := s.pc + 1 }

/-! ### The stack (R58 to R60) -/

/-- The stack address `$0100 | SP` (R23). -/
def stackAddr (sp : Byte) : Word := 0x0100#16 ||| zext16 sp

/-- `Push(v)` (R58): write at the current SP, then decrement it. -/
def push (v : Byte) (s : State) : State :=
  { busWrite (stackAddr s.sp) v s with sp := s.sp - 1 }

/-- `Pull()` (R59): increment SP, then read at the new SP. -/
def pull (s : State) : Byte × State := busRead (stackAddr (s.sp + 1)) { s with sp := s.sp + 1 }

/-- Push a 16-bit value, high byte first (R53). -/
def pushWord (v : Word) (s : State) : State := push (loByte v) (push (hiByte v) s)

/-- Pull a 16-bit value, low byte first (R53). -/
def pullWord (s : State) : Word × State :=
  let lo := pull s
  let hi := pull lo.2
  (word hi.1 lo.1, hi.2)

/-! ### Taking an interrupt and returning from one -/

/-- The NMI vector (R506). -/
def nmiVector : Word := 0xFFFA#16

/-- The reset vector (R506). -/
def resetVector : Word := 0xFFFC#16

/-- The vector of IRQ and BRK (R506). -/
def irqVector : Word := 0xFFFE#16

/-- `MemRead(addr, 2)` (R9): the low byte, then the high byte at the next address. -/
def busReadWord (addr : Word) (s : State) : Word × State :=
  let lo := busRead addr s
  let hi := busRead (addr + 1) lo.2
  (word hi.1 lo.1, hi.2)

/-- Entering an interrupt handler, the part that NMI, IRQ and BRK share (R313, R505, R507): push PC, high
byte first, push P with B = `b` and U = 1, set I, load PC from the vector. A, X, Y and the other bits of
P stay. -/
def enterInterrupt (vector : Word) (b : Bool) (s : State) : State :=
  let s1 := push (pushRepr b s.p) (pushWord s.pc s)
  let s2 := { s1 with p := setFlag .i true s1.p }
  let r := busReadWord vector s2
  { r.2 with pc := r.1 }

/-- The part of RTI that pulls: P, keeping the register's B and U, then PC, with no increment
(R314, R509). -/
def returnFromInterrupt (s : State) : State :=
  let v := pull s
  let s1 := { v.2 with p := pullRepr v.1 v.2.p }
  let r := pullWord s1
  { r.2 with pc := r.1 }

/-- The two interrupts a step can service (R500). -/
inductive Interrupt where
  | nmi
  | irq
deriving DecidableEq, Repr

/-- `Service(vector, kind)` (R505): two dummy reads at PC, the entry with B = 0, and for NMI the latch
cleared; an IRQ stays asserted (R502). -/
def service (kind : Interrupt) (s : State) : State :=
  let s1 := dummyRead s.pc (dummyRead s.pc s)
  match kind with
  | .nmi => { enterInterrupt nmiVector false s1 with pendingNmi := false }
  | .irq => enterInterrupt irqVector false s1

/-- What a step does (R470). -/
inductive StepKind where
  /-- nothing: the core is halted (R471) -/
  | halted
  /-- one interrupt service (R505) -/
  | service (kind : Interrupt)
  /-- one instruction (R472, R473) -/
  | instruction
deriving DecidableEq, Repr

/-- The sampling at the start of a step (R470, R503, R504): halted first, then NMI, then IRQ when I is
clear. -/
def sample (s : State) : StepKind :=
  if s.halted then .halted
  else if s.pendingNmi then .service .nmi
  else if s.pendingIrq && !getFlag .i s.p then .service .irq
  else .instruction

/-- A step starts with an empty bus log (R470). -/
def beginStep (s : State) : State := { s with log := [] }

/-- The count `step()` returns (R475): the number of bus accesses of the step. -/
def State.work (s : State) : Nat := s.log.length

/-! ### The host's calls (R479) -/

/-- `trigger_nmi()` (R518). -/
def State.triggerNmi (s : State) : State := { s with pendingNmi := true }

/-- `trigger_irq(level)` (R518). -/
def State.triggerIrq (level : Bool) (s : State) : State := { s with pendingIrq := level }

/-- `reset()` (R550, R551): SP minus 3 with no write, I set, PC from the reset vector by two reads, halted
and both latches cleared; everything else stays (R552). -/
def State.hostReset (s : State) : State :=
  let s1 := { s with sp := s.sp - 3, p := setFlag .i true s.p, log := [] }
  let r := busReadWord resetVector s1
  { r.2 with pc := r.1, halted := false, pendingNmi := false, pendingIrq := false }

end Sys2Proof.Machine
end

