-- ==== Sys2Proof/Syntax.lean ====
section
/-! DEFINITION. The instructions: one constructor for each row of the opcode map (R76), except that rows
which agree in mnemonic, mode and rule (the 12 STP, the illegal NOPs of one mode, the two ANC: R79)
share one constructor, whose first field says which opcode it is. (Lean compiles no type of 256
constructors: log entry 17.)
A constructor's other fields are the operand bytes of R70, first to last: `nn` one operand byte, `ll` and
`hh` the low and high byte of a 16-bit operand, `dd` a branch displacement.
Also the addressing modes that give an effective address (R132), the other operand shapes, and the
access disciplines (R138). -/

namespace Sys2Proof

/-- The opcodes of STP imp (R434), which all do the same. -/
inductive StpOpcode where
  | x02 | x12 | x22 | x32 | x42 | x52 | x62 | x72 | x92 | xB2 | xD2 | xF2
deriving DecidableEq, Repr

/-- The opcodes of NOP zpg (R433), which all do the same. -/
inductive NopZpgOpcode where
  | x04 | x44 | x64
deriving DecidableEq, Repr

/-- The opcodes of ANC imm (R420), which all do the same. -/
inductive AncImmOpcode where
  | x0B | x2B
deriving DecidableEq, Repr

/-- The opcodes of NOP zpx (R433), which all do the same. -/
inductive NopZpxOpcode where
  | x14 | x34 | x54 | x74 | xD4 | xF4
deriving DecidableEq, Repr

/-- The opcodes of NOP imp (R433), which all do the same. -/
inductive NopImpOpcode where
  | x1A | x3A | x5A | x7A | xDA | xFA
deriving DecidableEq, Repr

/-- The opcodes of NOP abx (R433), which all do the same. -/
inductive NopAbxOpcode where
  | x1C | x3C | x5C | x7C | xDC | xFC
deriving DecidableEq, Repr

/-- The opcodes of NOP imm (R433), which all do the same. -/
inductive NopImmOpcode where
  | x80 | x82 | x89 | xC2 | xE2
deriving DecidableEq, Repr

/-- One machine instruction. -/
inductive Instr where
  /-- `$00` BRK imp, R313. -/
  | brk
  /-- `$01` ORA izx, R243. -/
  | oraIzx (nn : Byte)
  /-- `$02`, `$12`, `$22`, `$32`, `$42`, `$52`, `$62`, `$72`, `$92`, `$B2`, `$D2`, `$F2` STP imp, R434. -/
  | stp (op : StpOpcode)
  /-- `$03` SLO izx, R380. -/
  | sloIzx (nn : Byte)
  /-- `$04`, `$44`, `$64` NOP zpg, R433. -/
  | nopZpg (op : NopZpgOpcode) (nn : Byte)
  /-- `$05` ORA zpg, R243. -/
  | oraZpg (nn : Byte)
  /-- `$06` ASL zpg, R280. -/
  | aslZpg (nn : Byte)
  /-- `$07` SLO zpg, R380. -/
  | sloZpg (nn : Byte)
  /-- `$08` PHP imp, R341. -/
  | php
  /-- `$09` ORA imm, R243. -/
  | oraImm (nn : Byte)
  /-- `$0A` ASL acc, R280. -/
  | aslAcc
  /-- `$0B`, `$2B` ANC imm, R420. -/
  | ancImm (op : AncImmOpcode) (nn : Byte)
  /-- `$0C` NOP abs, R433. -/
  | nopAbs (ll hh : Byte)
  /-- `$0D` ORA abs, R243. -/
  | oraAbs (ll hh : Byte)
  /-- `$0E` ASL abs, R280. -/
  | aslAbs (ll hh : Byte)
  /-- `$0F` SLO abs, R380. -/
  | sloAbs (ll hh : Byte)
  /-- `$10` BPL rel, R301. -/
  | bpl (dd : Byte)
  /-- `$11` ORA izy, R243. -/
  | oraIzy (nn : Byte)
  /-- `$13` SLO izy, R380. -/
  | sloIzy (nn : Byte)
  /-- `$14`, `$34`, `$54`, `$74`, `$D4`, `$F4` NOP zpx, R433. -/
  | nopZpx (op : NopZpxOpcode) (nn : Byte)
  /-- `$15` ORA zpx, R243. -/
  | oraZpx (nn : Byte)
  /-- `$16` ASL zpx, R280. -/
  | aslZpx (nn : Byte)
  /-- `$17` SLO zpx, R380. -/
  | sloZpx (nn : Byte)
  /-- `$18` CLC imp, R344. -/
  | clc
  /-- `$19` ORA aby, R243. -/
  | oraAby (ll hh : Byte)
  /-- `$1A`, `$3A`, `$5A`, `$7A`, `$DA`, `$FA` NOP imp, R433. -/
  | nopImp (op : NopImpOpcode)
  /-- `$1B` SLO aby, R380. -/
  | sloAby (ll hh : Byte)
  /-- `$1C`, `$3C`, `$5C`, `$7C`, `$DC`, `$FC` NOP abx, R433. -/
  | nopAbx (op : NopAbxOpcode) (ll hh : Byte)
  /-- `$1D` ORA abx, R243. -/
  | oraAbx (ll hh : Byte)
  /-- `$1E` ASL abx, R280. -/
  | aslAbx (ll hh : Byte)
  /-- `$1F` SLO abx, R380. -/
  | sloAbx (ll hh : Byte)
  /-- `$20` JSR abs, R311. -/
  | jsr (ll hh : Byte)
  /-- `$21` AND izx, R242. -/
  | andIzx (nn : Byte)
  /-- `$23` RLA izx, R381. -/
  | rlaIzx (nn : Byte)
  /-- `$24` BIT zpg, R245. -/
  | bitZpg (nn : Byte)
  /-- `$25` AND zpg, R242. -/
  | andZpg (nn : Byte)
  /-- `$26` ROL zpg, R282. -/
  | rolZpg (nn : Byte)
  /-- `$27` RLA zpg, R381. -/
  | rlaZpg (nn : Byte)
  /-- `$28` PLP imp, R343. -/
  | plp
  /-- `$29` AND imm, R242. -/
  | andImm (nn : Byte)
  /-- `$2A` ROL acc, R282. -/
  | rolAcc
  /-- `$2C` BIT abs, R245. -/
  | bitAbs (ll hh : Byte)
  /-- `$2D` AND abs, R242. -/
  | andAbs (ll hh : Byte)
  /-- `$2E` ROL abs, R282. -/
  | rolAbs (ll hh : Byte)
  /-- `$2F` RLA abs, R381. -/
  | rlaAbs (ll hh : Byte)
  /-- `$30` BMI rel, R302. -/
  | bmi (dd : Byte)
  /-- `$31` AND izy, R242. -/
  | andIzy (nn : Byte)
  /-- `$33` RLA izy, R381. -/
  | rlaIzy (nn : Byte)
  /-- `$35` AND zpx, R242. -/
  | andZpx (nn : Byte)
  /-- `$36` ROL zpx, R282. -/
  | rolZpx (nn : Byte)
  /-- `$37` RLA zpx, R381. -/
  | rlaZpx (nn : Byte)
  /-- `$38` SEC imp, R345. -/
  | sec
  /-- `$39` AND aby, R242. -/
  | andAby (ll hh : Byte)
  /-- `$3B` RLA aby, R381. -/
  | rlaAby (ll hh : Byte)
  /-- `$3D` AND abx, R242. -/
  | andAbx (ll hh : Byte)
  /-- `$3E` ROL abx, R282. -/
  | rolAbx (ll hh : Byte)
  /-- `$3F` RLA abx, R381. -/
  | rlaAbx (ll hh : Byte)
  /-- `$40` RTI imp, R314. -/
  | rti
  /-- `$41` EOR izx, R244. -/
  | eorIzx (nn : Byte)
  /-- `$43` SRE izx, R382. -/
  | sreIzx (nn : Byte)
  /-- `$45` EOR zpg, R244. -/
  | eorZpg (nn : Byte)
  /-- `$46` LSR zpg, R281. -/
  | lsrZpg (nn : Byte)
  /-- `$47` SRE zpg, R382. -/
  | sreZpg (nn : Byte)
  /-- `$48` PHA imp, R340. -/
  | pha
  /-- `$49` EOR imm, R244. -/
  | eorImm (nn : Byte)
  /-- `$4A` LSR acc, R281. -/
  | lsrAcc
  /-- `$4B` ALR imm, R421. -/
  | alrImm (nn : Byte)
  /-- `$4C` JMP abs, R309. -/
  | jmpAbs (ll hh : Byte)
  /-- `$4D` EOR abs, R244. -/
  | eorAbs (ll hh : Byte)
  /-- `$4E` LSR abs, R281. -/
  | lsrAbs (ll hh : Byte)
  /-- `$4F` SRE abs, R382. -/
  | sreAbs (ll hh : Byte)
  /-- `$50` BVC rel, R303. -/
  | bvc (dd : Byte)
  /-- `$51` EOR izy, R244. -/
  | eorIzy (nn : Byte)
  /-- `$53` SRE izy, R382. -/
  | sreIzy (nn : Byte)
  /-- `$55` EOR zpx, R244. -/
  | eorZpx (nn : Byte)
  /-- `$56` LSR zpx, R281. -/
  | lsrZpx (nn : Byte)
  /-- `$57` SRE zpx, R382. -/
  | sreZpx (nn : Byte)
  /-- `$58` CLI imp, R346. -/
  | cli
  /-- `$59` EOR aby, R244. -/
  | eorAby (ll hh : Byte)
  /-- `$5B` SRE aby, R382. -/
  | sreAby (ll hh : Byte)
  /-- `$5D` EOR abx, R244. -/
  | eorAbx (ll hh : Byte)
  /-- `$5E` LSR abx, R281. -/
  | lsrAbx (ll hh : Byte)
  /-- `$5F` SRE abx, R382. -/
  | sreAbx (ll hh : Byte)
  /-- `$60` RTS imp, R312. -/
  | rts
  /-- `$61` ADC izx, R240. -/
  | adcIzx (nn : Byte)
  /-- `$63` RRA izx, R383. -/
  | rraIzx (nn : Byte)
  /-- `$65` ADC zpg, R240. -/
  | adcZpg (nn : Byte)
  /-- `$66` ROR zpg, R283. -/
  | rorZpg (nn : Byte)
  /-- `$67` RRA zpg, R383. -/
  | rraZpg (nn : Byte)
  /-- `$68` PLA imp, R342. -/
  | pla
  /-- `$69` ADC imm, R240. -/
  | adcImm (nn : Byte)
  /-- `$6A` ROR acc, R283. -/
  | rorAcc
  /-- `$6B` ARR imm, R422. -/
  | arrImm (nn : Byte)
  /-- `$6C` JMP ind, R310. -/
  | jmpInd (ll hh : Byte)
  /-- `$6D` ADC abs, R240. -/
  | adcAbs (ll hh : Byte)
  /-- `$6E` ROR abs, R283. -/
  | rorAbs (ll hh : Byte)
  /-- `$6F` RRA abs, R383. -/
  | rraAbs (ll hh : Byte)
  /-- `$70` BVS rel, R304. -/
  | bvs (dd : Byte)
  /-- `$71` ADC izy, R240. -/
  | adcIzy (nn : Byte)
  /-- `$73` RRA izy, R383. -/
  | rraIzy (nn : Byte)
  /-- `$75` ADC zpx, R240. -/
  | adcZpx (nn : Byte)
  /-- `$76` ROR zpx, R283. -/
  | rorZpx (nn : Byte)
  /-- `$77` RRA zpx, R383. -/
  | rraZpx (nn : Byte)
  /-- `$78` SEI imp, R347. -/
  | sei
  /-- `$79` ADC aby, R240. -/
  | adcAby (ll hh : Byte)
  /-- `$7B` RRA aby, R383. -/
  | rraAby (ll hh : Byte)
  /-- `$7D` ADC abx, R240. -/
  | adcAbx (ll hh : Byte)
  /-- `$7E` ROR abx, R283. -/
  | rorAbx (ll hh : Byte)
  /-- `$7F` RRA abx, R383. -/
  | rraAbx (ll hh : Byte)
  /-- `$80`, `$82`, `$89`, `$C2`, `$E2` NOP imm, R433. -/
  | nopImm (op : NopImmOpcode) (nn : Byte)
  /-- `$81` STA izx, R203. -/
  | staIzx (nn : Byte)
  /-- `$83` SAX izx, R386. -/
  | saxIzx (nn : Byte)
  /-- `$84` STY zpg, R205. -/
  | styZpg (nn : Byte)
  /-- `$85` STA zpg, R203. -/
  | staZpg (nn : Byte)
  /-- `$86` STX zpg, R204. -/
  | stxZpg (nn : Byte)
  /-- `$87` SAX zpg, R386. -/
  | saxZpg (nn : Byte)
  /-- `$88` DEY imp, R254. -/
  | dey
  /-- `$8A` TXA imp, R208. -/
  | txa
  /-- `$8B` ANE imm, R423. -/
  | aneImm (nn : Byte)
  /-- `$8C` STY abs, R205. -/
  | styAbs (ll hh : Byte)
  /-- `$8D` STA abs, R203. -/
  | staAbs (ll hh : Byte)
  /-- `$8E` STX abs, R204. -/
  | stxAbs (ll hh : Byte)
  /-- `$8F` SAX abs, R386. -/
  | saxAbs (ll hh : Byte)
  /-- `$90` BCC rel, R305. -/
  | bcc (dd : Byte)
  /-- `$91` STA izy, R203. -/
  | staIzy (nn : Byte)
  /-- `$93` SHA izy, R428. -/
  | shaIzy (nn : Byte)
  /-- `$94` STY zpx, R205. -/
  | styZpx (nn : Byte)
  /-- `$95` STA zpx, R203. -/
  | staZpx (nn : Byte)
  /-- `$96` STX zpy, R204. -/
  | stxZpy (nn : Byte)
  /-- `$97` SAX zpy, R386. -/
  | saxZpy (nn : Byte)
  /-- `$98` TYA imp, R209. -/
  | tya
  /-- `$99` STA aby, R203. -/
  | staAby (ll hh : Byte)
  /-- `$9A` TXS imp, R211. -/
  | txs
  /-- `$9B` TAS aby, R431. -/
  | tasAby (ll hh : Byte)
  /-- `$9C` SHY abx, R430. -/
  | shyAbx (ll hh : Byte)
  /-- `$9D` STA abx, R203. -/
  | staAbx (ll hh : Byte)
  /-- `$9E` SHX aby, R429. -/
  | shxAby (ll hh : Byte)
  /-- `$9F` SHA aby, R428. -/
  | shaAby (ll hh : Byte)
  /-- `$A0` LDY imm, R202. -/
  | ldyImm (nn : Byte)
  /-- `$A1` LDA izx, R200. -/
  | ldaIzx (nn : Byte)
  /-- `$A2` LDX imm, R201. -/
  | ldxImm (nn : Byte)
  /-- `$A3` LAX izx, R387. -/
  | laxIzx (nn : Byte)
  /-- `$A4` LDY zpg, R202. -/
  | ldyZpg (nn : Byte)
  /-- `$A5` LDA zpg, R200. -/
  | ldaZpg (nn : Byte)
  /-- `$A6` LDX zpg, R201. -/
  | ldxZpg (nn : Byte)
  /-- `$A7` LAX zpg, R387. -/
  | laxZpg (nn : Byte)
  /-- `$A8` TAY imp, R207. -/
  | tay
  /-- `$A9` LDA imm, R200. -/
  | ldaImm (nn : Byte)
  /-- `$AA` TAX imp, R206. -/
  | tax
  /-- `$AB` LXA imm, R424. -/
  | lxaImm (nn : Byte)
  /-- `$AC` LDY abs, R202. -/
  | ldyAbs (ll hh : Byte)
  /-- `$AD` LDA abs, R200. -/
  | ldaAbs (ll hh : Byte)
  /-- `$AE` LDX abs, R201. -/
  | ldxAbs (ll hh : Byte)
  /-- `$AF` LAX abs, R387. -/
  | laxAbs (ll hh : Byte)
  /-- `$B0` BCS rel, R306. -/
  | bcs (dd : Byte)
  /-- `$B1` LDA izy, R200. -/
  | ldaIzy (nn : Byte)
  /-- `$B3` LAX izy, R387. -/
  | laxIzy (nn : Byte)
  /-- `$B4` LDY zpx, R202. -/
  | ldyZpx (nn : Byte)
  /-- `$B5` LDA zpx, R200. -/
  | ldaZpx (nn : Byte)
  /-- `$B6` LDX zpy, R201. -/
  | ldxZpy (nn : Byte)
  /-- `$B7` LAX zpy, R387. -/
  | laxZpy (nn : Byte)
  /-- `$B8` CLV imp, R348. -/
  | clv
  /-- `$B9` LDA aby, R200. -/
  | ldaAby (ll hh : Byte)
  /-- `$BA` TSX imp, R210. -/
  | tsx
  /-- `$BB` LAS aby, R426. -/
  | lasAby (ll hh : Byte)
  /-- `$BC` LDY abx, R202. -/
  | ldyAbx (ll hh : Byte)
  /-- `$BD` LDA abx, R200. -/
  | ldaAbx (ll hh : Byte)
  /-- `$BE` LDX aby, R201. -/
  | ldxAby (ll hh : Byte)
  /-- `$BF` LAX aby, R387. -/
  | laxAby (ll hh : Byte)
  /-- `$C0` CPY imm, R248. -/
  | cpyImm (nn : Byte)
  /-- `$C1` CMP izx, R246. -/
  | cmpIzx (nn : Byte)
  /-- `$C3` DCP izx, R384. -/
  | dcpIzx (nn : Byte)
  /-- `$C4` CPY zpg, R248. -/
  | cpyZpg (nn : Byte)
  /-- `$C5` CMP zpg, R246. -/
  | cmpZpg (nn : Byte)
  /-- `$C6` DEC zpg, R250. -/
  | decZpg (nn : Byte)
  /-- `$C7` DCP zpg, R384. -/
  | dcpZpg (nn : Byte)
  /-- `$C8` INY imp, R252. -/
  | iny
  /-- `$C9` CMP imm, R246. -/
  | cmpImm (nn : Byte)
  /-- `$CA` DEX imp, R253. -/
  | dex
  /-- `$CB` SBX imm, R425. -/
  | sbxImm (nn : Byte)
  /-- `$CC` CPY abs, R248. -/
  | cpyAbs (ll hh : Byte)
  /-- `$CD` CMP abs, R246. -/
  | cmpAbs (ll hh : Byte)
  /-- `$CE` DEC abs, R250. -/
  | decAbs (ll hh : Byte)
  /-- `$CF` DCP abs, R384. -/
  | dcpAbs (ll hh : Byte)
  /-- `$D0` BNE rel, R307. -/
  | bne (dd : Byte)
  /-- `$D1` CMP izy, R246. -/
  | cmpIzy (nn : Byte)
  /-- `$D3` DCP izy, R384. -/
  | dcpIzy (nn : Byte)
  /-- `$D5` CMP zpx, R246. -/
  | cmpZpx (nn : Byte)
  /-- `$D6` DEC zpx, R250. -/
  | decZpx (nn : Byte)
  /-- `$D7` DCP zpx, R384. -/
  | dcpZpx (nn : Byte)
  /-- `$D8` CLD imp, R349. -/
  | cld
  /-- `$D9` CMP aby, R246. -/
  | cmpAby (ll hh : Byte)
  /-- `$DB` DCP aby, R384. -/
  | dcpAby (ll hh : Byte)
  /-- `$DD` CMP abx, R246. -/
  | cmpAbx (ll hh : Byte)
  /-- `$DE` DEC abx, R250. -/
  | decAbx (ll hh : Byte)
  /-- `$DF` DCP abx, R384. -/
  | dcpAbx (ll hh : Byte)
  /-- `$E0` CPX imm, R247. -/
  | cpxImm (nn : Byte)
  /-- `$E1` SBC izx, R241. -/
  | sbcIzx (nn : Byte)
  /-- `$E3` ISC izx, R385. -/
  | iscIzx (nn : Byte)
  /-- `$E4` CPX zpg, R247. -/
  | cpxZpg (nn : Byte)
  /-- `$E5` SBC zpg, R241. -/
  | sbcZpg (nn : Byte)
  /-- `$E6` INC zpg, R249. -/
  | incZpg (nn : Byte)
  /-- `$E7` ISC zpg, R385. -/
  | iscZpg (nn : Byte)
  /-- `$E8` INX imp, R251. -/
  | inx
  /-- `$E9` SBC imm, R241. -/
  | sbcImm (nn : Byte)
  /-- `$EA` NOP imp, R351. -/
  | nop
  /-- `$EB` SBC imm, R432. -/
  | sbcImmEB (nn : Byte)
  /-- `$EC` CPX abs, R247. -/
  | cpxAbs (ll hh : Byte)
  /-- `$ED` SBC abs, R241. -/
  | sbcAbs (ll hh : Byte)
  /-- `$EE` INC abs, R249. -/
  | incAbs (ll hh : Byte)
  /-- `$EF` ISC abs, R385. -/
  | iscAbs (ll hh : Byte)
  /-- `$F0` BEQ rel, R308. -/
  | beq (dd : Byte)
  /-- `$F1` SBC izy, R241. -/
  | sbcIzy (nn : Byte)
  /-- `$F3` ISC izy, R385. -/
  | iscIzy (nn : Byte)
  /-- `$F5` SBC zpx, R241. -/
  | sbcZpx (nn : Byte)
  /-- `$F6` INC zpx, R249. -/
  | incZpx (nn : Byte)
  /-- `$F7` ISC zpx, R385. -/
  | iscZpx (nn : Byte)
  /-- `$F8` SED imp, R350. -/
  | sed
  /-- `$F9` SBC aby, R241. -/
  | sbcAby (ll hh : Byte)
  /-- `$FB` ISC aby, R385. -/
  | iscAby (ll hh : Byte)
  /-- `$FD` SBC abx, R241. -/
  | sbcAbx (ll hh : Byte)
  /-- `$FE` INC abx, R249. -/
  | incAbx (ll hh : Byte)
  /-- `$FF` ISC abx, R385. -/
  | iscAbx (ll hh : Byte)
deriving DecidableEq, Repr

/-- The addressing modes with an effective address, with their operand bytes (R130, R132). -/
inductive MemOperand where
  /-- zero page -/
  | zpg (nn : Byte)
  /-- zero page indexed by X -/
  | zpx (nn : Byte)
  /-- zero page indexed by Y -/
  | zpy (nn : Byte)
  /-- absolute -/
  | abs (ll hh : Byte)
  /-- absolute indexed by X -/
  | abx (ll hh : Byte)
  /-- absolute indexed by Y -/
  | aby (ll hh : Byte)
  /-- indexed indirect, `($nn,X)` -/
  | izx (nn : Byte)
  /-- indirect indexed, `($nn),Y` -/
  | izy (nn : Byte)
deriving DecidableEq, Repr

/-- The operand of an instruction that reads one byte: an immediate byte (R73) or a byte of memory. -/
inductive Operand where
  | imm (nn : Byte)
  | mem (m : MemOperand)
deriving DecidableEq, Repr

/-- The access disciplines that reach memory through the resolver (R138). -/
inductive Discipline where
  | read
  | write
  | rmw
deriving DecidableEq, Repr

/-- The 13 addressing modes (R130). -/
inductive Mode where
  | imp
  | acc
  | imm
  | zpg
  | zpx
  | zpy
  | abs
  | abx
  | aby
  | ind
  | izx
  | izy
  | rel
deriving DecidableEq, Repr

end Sys2Proof
end

