-- ==== Sys2Proof/Machine/Operands.lean ====
section
/-! DEFINITION. The addressing-mode resolver and the executor (41_addressing.md). Every function is entered
with PC = PC0 + 1, after the opcode fetch (R13). -/

namespace Sys2Proof.Machine

/-- What the resolver yields (R141): the effective address, the high byte of the unindexed base, and
whether the index sum crossed a page. Modes without an indexed 16-bit base give their address's own
high byte and no crossing. -/
structure Resolved where
  ea : Word
  baseHi : Byte
  cross : Bool
deriving DecidableEq, Repr

/-- The indexed 16-bit modes from their base `hh:ll` on (R134 to R136, R141): the sum, and the dummy read
at the un-fixed address, on a page crossing for reads and always for stores and read-modify-write. -/
def resolveIndexed (hh ll i : Byte) (d : Discipline) (s : State) : Resolved × State :=
  let cross := decide (ll.toNat + i.toNat > 0xFF)
  let r : Resolved := ⟨word hh ll + zext16 i, hh, cross⟩
  (r, if cross || d != .read then dummyRead (word hh (ll + i)) s else s)

/-- A resolved address that no 16-bit index was added to. -/
def plainAddr (ea : Word) : Resolved := ⟨ea, hiByte ea, false⟩

/-- `Resolve(mode, disc)` (R132, R141). -/
def resolve (m : MemOperand) (d : Discipline) (s : State) : Resolved × State :=
  match m with
  | .zpg nn => (plainAddr (zext16 nn), fetchOperand nn s)
  | .zpx nn =>
    let s1 := dummyRead (zext16 nn) (fetchOperand nn s)
    (plainAddr (zext16 (nn + s.x)), s1)
  | .zpy nn =>
    let s1 := dummyRead (zext16 nn) (fetchOperand nn s)
    (plainAddr (zext16 (nn + s.y)), s1)
  | .abs ll hh => (plainAddr (word hh ll), fetchOperand hh (fetchOperand ll s))
  | .abx ll hh => resolveIndexed hh ll s.x d (fetchOperand hh (fetchOperand ll s))
  | .aby ll hh => resolveIndexed hh ll s.y d (fetchOperand hh (fetchOperand ll s))
  | .izx nn =>
    let s1 := dummyRead (zext16 nn) (fetchOperand nn s)
    let lo := busRead (zext16 (nn + s.x)) s1
    let hi := busRead (zext16 (nn + s.x + 1)) lo.2
    (plainAddr (word hi.1 lo.1), hi.2)
  | .izy nn =>
    let s1 := fetchOperand nn s
    let lo := busRead (zext16 nn) s1
    let hi := busRead (zext16 (nn + 1)) lo.2
    resolveIndexed hi.1 lo.1 s.y d hi.2

/-- The operand byte of an instruction of the read discipline, and the state after it is read (R140). -/
def readOperand (o : Operand) (s : State) : Byte × State :=
  match o with
  | .imm nn => (nn, fetchOperand nn s)
  | .mem m =>
    let r := resolve m .read s
    busRead r.1.ea r.2

/-- The executor for the read discipline (R140). -/
def executeRead (o : Operand) (body : Byte → State → State) (s : State) : State :=
  let r := readOperand o s
  body r.1 r.2

/-- The executor for the write discipline (R140): the body gives the byte. -/
def executeWrite (m : MemOperand) (body : State → Byte) (s : State) : State :=
  let r := resolve m .write s
  busWrite r.1.ea (body r.2) r.2

/-- The executor for the read-modify-write discipline (R139, R140): read, write the unmodified byte, run
the body, write its result. -/
def executeRmw (m : MemOperand) (body : Byte → State → Byte × State) (s : State) : State :=
  let r := resolve m .rmw s
  let rd := busRead r.1.ea r.2
  let b := body rd.1 (busWrite r.1.ea rd.1 rd.2)
  busWrite r.1.ea b.1 b.2

/-- The executor for mode imp (R137, R140): a dummy read at PC, then the body. -/
def executeImp (body : State → State) (s : State) : State := body (dummyRead s.pc s)

/-- The executor for mode acc (R137, R140): a dummy read at PC, then A through the ALU function `f`, which
takes the byte and P. -/
def executeAcc (f : Byte → Byte → Byte × Byte) (s : State) : State :=
  let s1 := dummyRead s.pc s
  let r := f s1.a s1.p
  { s1 with a := r.1, p := r.2 }

/-- The stores of R427 (SHA, SHX, SHY, TAS): the byte is `reg & (H + 1)` with `H` the high byte of the
unindexed base, and on a page crossing it replaces the address's high byte. Log entry 14. -/
def executeHighStore (m : MemOperand) (reg : State → Byte) (s : State) : State :=
  let r := resolve m .write s
  let v := reg r.2 &&& (r.1.baseHi + 1)
  busWrite (if r.1.cross then word v (loByte r.1.ea) else r.1.ea) v r.2

/-! ### Bodies shared by the families -/

/-- A body of the rmw discipline from an ALU function on the byte and P. -/
def aluBody (f : Byte → Byte → Byte × Byte) (v : Byte) (s : State) : Byte × State :=
  let r := f v s.p
  (r.1, { s with p := r.2 })

/-- Load A and set N and Z. -/
def loadA (v : Byte) (s : State) : State := { s with a := v, p := setNz v s.p }

/-- Load X and set N and Z. -/
def loadX (v : Byte) (s : State) : State := { s with x := v, p := setNz v s.p }

/-- Load Y and set N and Z. -/
def loadY (v : Byte) (s : State) : State := { s with y := v, p := setNz v s.p }

/-- `adc` on the state (R103). -/
def adc (val : Byte) (s : State) : State :=
  let r := adcAlu s.a val s.p
  { s with a := r.1, p := r.2 }

/-- `sbc` on the state (R104). -/
def sbc (val : Byte) (s : State) : State :=
  let r := sbcAlu s.a val s.p
  { s with a := r.1, p := r.2 }

/-- `and` (R111). -/
def and8 (val : Byte) (s : State) : State := loadA (s.a &&& val) s

/-- `ora` (R111). -/
def ora8 (val : Byte) (s : State) : State := loadA (s.a ||| val) s

/-- `eor` (R111). -/
def eor8 (val : Byte) (s : State) : State := loadA (s.a ^^^ val) s

/-- `compare` with A (R105). -/
def cmpA (val : Byte) (s : State) : State := { s with p := compareFlags s.a val s.p }

/-- `compare` with X (R105). -/
def cmpX (val : Byte) (s : State) : State := { s with p := compareFlags s.x val s.p }

/-- `compare` with Y (R105). -/
def cmpY (val : Byte) (s : State) : State := { s with p := compareFlags s.y val s.p }

/-- `bit` (R112). -/
def bitTest (val : Byte) (s : State) : State := { s with p := bitFlags s.a val s.p }

end Sys2Proof.Machine
end

