-- ==== Sys2Proof/Machine/Arith.lean ====
section
/-! DEFINITION. Arithmetic, logic, compare, increment and decrement (43_arith_logic.md). -/

namespace Sys2Proof.Machine

/-! ### Shared bodies and sequences -/

/-- INX (R251). -/
def inxBody (s : State) : State := loadX (s.x + 1) s

/-- INY (R252). -/
def inyBody (s : State) : State := loadY (s.y + 1) s

/-- DEX (R253). -/
def dexBody (s : State) : State := loadX (s.x - 1) s

/-- DEY (R254). -/
def deyBody (s : State) : State := loadY (s.y - 1) s

/-! ### The meanings -/

/-- ADC (zero page,X), `$61` (R240). -/
def execAdcIzx (nn : Byte) (s : State) :
    Host.Outcome State Fault Refusal :=
  .next (executeRead (.mem (.izx nn)) adc s)

/-- ADC zero page, `$65` (R240). -/
def execAdcZpg (nn : Byte) (s : State) :
    Host.Outcome State Fault Refusal :=
  .next (executeRead (.mem (.zpg nn)) adc s)

/-- ADC immediate, `$69` (R240). -/
def execAdcImm (nn : Byte) (s : State) :
    Host.Outcome State Fault Refusal :=
  .next (executeRead (.imm nn) adc s)

/-- ADC absolute, `$6D` (R240). -/
def execAdcAbs (ll hh : Byte) (s : State) :
    Host.Outcome State Fault Refusal :=
  .next (executeRead (.mem (.abs ll hh)) adc s)

/-- ADC (zero page),Y, `$71` (R240). -/
def execAdcIzy (nn : Byte) (s : State) :
    Host.Outcome State Fault Refusal :=
  .next (executeRead (.mem (.izy nn)) adc s)

/-- ADC zero page,X, `$75` (R240). -/
def execAdcZpx (nn : Byte) (s : State) :
    Host.Outcome State Fault Refusal :=
  .next (executeRead (.mem (.zpx nn)) adc s)

/-- ADC absolute,Y, `$79` (R240). -/
def execAdcAby (ll hh : Byte) (s : State) :
    Host.Outcome State Fault Refusal :=
  .next (executeRead (.mem (.aby ll hh)) adc s)

/-- ADC absolute,X, `$7D` (R240). -/
def execAdcAbx (ll hh : Byte) (s : State) :
    Host.Outcome State Fault Refusal :=
  .next (executeRead (.mem (.abx ll hh)) adc s)

/-- SBC (zero page,X), `$E1` (R241). -/
def execSbcIzx (nn : Byte) (s : State) :
    Host.Outcome State Fault Refusal :=
  .next (executeRead (.mem (.izx nn)) sbc s)

/-- SBC zero page, `$E5` (R241). -/
def execSbcZpg (nn : Byte) (s : State) :
    Host.Outcome State Fault Refusal :=
  .next (executeRead (.mem (.zpg nn)) sbc s)

/-- SBC immediate, `$E9` (R241). -/
def execSbcImm (nn : Byte) (s : State) :
    Host.Outcome State Fault Refusal :=
  .next (executeRead (.imm nn) sbc s)

/-- SBC absolute, `$ED` (R241). -/
def execSbcAbs (ll hh : Byte) (s : State) :
    Host.Outcome State Fault Refusal :=
  .next (executeRead (.mem (.abs ll hh)) sbc s)

/-- SBC (zero page),Y, `$F1` (R241). -/
def execSbcIzy (nn : Byte) (s : State) :
    Host.Outcome State Fault Refusal :=
  .next (executeRead (.mem (.izy nn)) sbc s)

/-- SBC zero page,X, `$F5` (R241). -/
def execSbcZpx (nn : Byte) (s : State) :
    Host.Outcome State Fault Refusal :=
  .next (executeRead (.mem (.zpx nn)) sbc s)

/-- SBC absolute,Y, `$F9` (R241). -/
def execSbcAby (ll hh : Byte) (s : State) :
    Host.Outcome State Fault Refusal :=
  .next (executeRead (.mem (.aby ll hh)) sbc s)

/-- SBC absolute,X, `$FD` (R241). -/
def execSbcAbx (ll hh : Byte) (s : State) :
    Host.Outcome State Fault Refusal :=
  .next (executeRead (.mem (.abx ll hh)) sbc s)

/-- AND (zero page,X), `$21` (R242). -/
def execAndIzx (nn : Byte) (s : State) :
    Host.Outcome State Fault Refusal :=
  .next (executeRead (.mem (.izx nn)) and8 s)

/-- AND zero page, `$25` (R242). -/
def execAndZpg (nn : Byte) (s : State) :
    Host.Outcome State Fault Refusal :=
  .next (executeRead (.mem (.zpg nn)) and8 s)

/-- AND immediate, `$29` (R242). -/
def execAndImm (nn : Byte) (s : State) :
    Host.Outcome State Fault Refusal :=
  .next (executeRead (.imm nn) and8 s)

/-- AND absolute, `$2D` (R242). -/
def execAndAbs (ll hh : Byte) (s : State) :
    Host.Outcome State Fault Refusal :=
  .next (executeRead (.mem (.abs ll hh)) and8 s)

/-- AND (zero page),Y, `$31` (R242). -/
def execAndIzy (nn : Byte) (s : State) :
    Host.Outcome State Fault Refusal :=
  .next (executeRead (.mem (.izy nn)) and8 s)

/-- AND zero page,X, `$35` (R242). -/
def execAndZpx (nn : Byte) (s : State) :
    Host.Outcome State Fault Refusal :=
  .next (executeRead (.mem (.zpx nn)) and8 s)

/-- AND absolute,Y, `$39` (R242). -/
def execAndAby (ll hh : Byte) (s : State) :
    Host.Outcome State Fault Refusal :=
  .next (executeRead (.mem (.aby ll hh)) and8 s)

/-- AND absolute,X, `$3D` (R242). -/
def execAndAbx (ll hh : Byte) (s : State) :
    Host.Outcome State Fault Refusal :=
  .next (executeRead (.mem (.abx ll hh)) and8 s)

/-- ORA (zero page,X), `$01` (R243). -/
def execOraIzx (nn : Byte) (s : State) :
    Host.Outcome State Fault Refusal :=
  .next (executeRead (.mem (.izx nn)) ora8 s)

/-- ORA zero page, `$05` (R243). -/
def execOraZpg (nn : Byte) (s : State) :
    Host.Outcome State Fault Refusal :=
  .next (executeRead (.mem (.zpg nn)) ora8 s)

/-- ORA immediate, `$09` (R243). -/
def execOraImm (nn : Byte) (s : State) :
    Host.Outcome State Fault Refusal :=
  .next (executeRead (.imm nn) ora8 s)

/-- ORA absolute, `$0D` (R243). -/
def execOraAbs (ll hh : Byte) (s : State) :
    Host.Outcome State Fault Refusal :=
  .next (executeRead (.mem (.abs ll hh)) ora8 s)

/-- ORA (zero page),Y, `$11` (R243). -/
def execOraIzy (nn : Byte) (s : State) :
    Host.Outcome State Fault Refusal :=
  .next (executeRead (.mem (.izy nn)) ora8 s)

/-- ORA zero page,X, `$15` (R243). -/
def execOraZpx (nn : Byte) (s : State) :
    Host.Outcome State Fault Refusal :=
  .next (executeRead (.mem (.zpx nn)) ora8 s)

/-- ORA absolute,Y, `$19` (R243). -/
def execOraAby (ll hh : Byte) (s : State) :
    Host.Outcome State Fault Refusal :=
  .next (executeRead (.mem (.aby ll hh)) ora8 s)

/-- ORA absolute,X, `$1D` (R243). -/
def execOraAbx (ll hh : Byte) (s : State) :
    Host.Outcome State Fault Refusal :=
  .next (executeRead (.mem (.abx ll hh)) ora8 s)

/-- EOR (zero page,X), `$41` (R244). -/
def execEorIzx (nn : Byte) (s : State) :
    Host.Outcome State Fault Refusal :=
  .next (executeRead (.mem (.izx nn)) eor8 s)

/-- EOR zero page, `$45` (R244). -/
def execEorZpg (nn : Byte) (s : State) :
    Host.Outcome State Fault Refusal :=
  .next (executeRead (.mem (.zpg nn)) eor8 s)

/-- EOR immediate, `$49` (R244). -/
def execEorImm (nn : Byte) (s : State) :
    Host.Outcome State Fault Refusal :=
  .next (executeRead (.imm nn) eor8 s)

/-- EOR absolute, `$4D` (R244). -/
def execEorAbs (ll hh : Byte) (s : State) :
    Host.Outcome State Fault Refusal :=
  .next (executeRead (.mem (.abs ll hh)) eor8 s)

/-- EOR (zero page),Y, `$51` (R244). -/
def execEorIzy (nn : Byte) (s : State) :
    Host.Outcome State Fault Refusal :=
  .next (executeRead (.mem (.izy nn)) eor8 s)

/-- EOR zero page,X, `$55` (R244). -/
def execEorZpx (nn : Byte) (s : State) :
    Host.Outcome State Fault Refusal :=
  .next (executeRead (.mem (.zpx nn)) eor8 s)

/-- EOR absolute,Y, `$59` (R244). -/
def execEorAby (ll hh : Byte) (s : State) :
    Host.Outcome State Fault Refusal :=
  .next (executeRead (.mem (.aby ll hh)) eor8 s)

/-- EOR absolute,X, `$5D` (R244). -/
def execEorAbx (ll hh : Byte) (s : State) :
    Host.Outcome State Fault Refusal :=
  .next (executeRead (.mem (.abx ll hh)) eor8 s)

/-- BIT zero page, `$24` (R245). -/
def execBitZpg (nn : Byte) (s : State) :
    Host.Outcome State Fault Refusal :=
  .next (executeRead (.mem (.zpg nn)) bitTest s)

/-- BIT absolute, `$2C` (R245). -/
def execBitAbs (ll hh : Byte) (s : State) :
    Host.Outcome State Fault Refusal :=
  .next (executeRead (.mem (.abs ll hh)) bitTest s)

/-- CMP (zero page,X), `$C1` (R246). -/
def execCmpIzx (nn : Byte) (s : State) :
    Host.Outcome State Fault Refusal :=
  .next (executeRead (.mem (.izx nn)) cmpA s)

/-- CMP zero page, `$C5` (R246). -/
def execCmpZpg (nn : Byte) (s : State) :
    Host.Outcome State Fault Refusal :=
  .next (executeRead (.mem (.zpg nn)) cmpA s)

/-- CMP immediate, `$C9` (R246). -/
def execCmpImm (nn : Byte) (s : State) :
    Host.Outcome State Fault Refusal :=
  .next (executeRead (.imm nn) cmpA s)

/-- CMP absolute, `$CD` (R246). -/
def execCmpAbs (ll hh : Byte) (s : State) :
    Host.Outcome State Fault Refusal :=
  .next (executeRead (.mem (.abs ll hh)) cmpA s)

/-- CMP (zero page),Y, `$D1` (R246). -/
def execCmpIzy (nn : Byte) (s : State) :
    Host.Outcome State Fault Refusal :=
  .next (executeRead (.mem (.izy nn)) cmpA s)

/-- CMP zero page,X, `$D5` (R246). -/
def execCmpZpx (nn : Byte) (s : State) :
    Host.Outcome State Fault Refusal :=
  .next (executeRead (.mem (.zpx nn)) cmpA s)

/-- CMP absolute,Y, `$D9` (R246). -/
def execCmpAby (ll hh : Byte) (s : State) :
    Host.Outcome State Fault Refusal :=
  .next (executeRead (.mem (.aby ll hh)) cmpA s)

/-- CMP absolute,X, `$DD` (R246). -/
def execCmpAbx (ll hh : Byte) (s : State) :
    Host.Outcome State Fault Refusal :=
  .next (executeRead (.mem (.abx ll hh)) cmpA s)

/-- CPX immediate, `$E0` (R247). -/
def execCpxImm (nn : Byte) (s : State) :
    Host.Outcome State Fault Refusal :=
  .next (executeRead (.imm nn) cmpX s)

/-- CPX zero page, `$E4` (R247). -/
def execCpxZpg (nn : Byte) (s : State) :
    Host.Outcome State Fault Refusal :=
  .next (executeRead (.mem (.zpg nn)) cmpX s)

/-- CPX absolute, `$EC` (R247). -/
def execCpxAbs (ll hh : Byte) (s : State) :
    Host.Outcome State Fault Refusal :=
  .next (executeRead (.mem (.abs ll hh)) cmpX s)

/-- CPY immediate, `$C0` (R248). -/
def execCpyImm (nn : Byte) (s : State) :
    Host.Outcome State Fault Refusal :=
  .next (executeRead (.imm nn) cmpY s)

/-- CPY zero page, `$C4` (R248). -/
def execCpyZpg (nn : Byte) (s : State) :
    Host.Outcome State Fault Refusal :=
  .next (executeRead (.mem (.zpg nn)) cmpY s)

/-- CPY absolute, `$CC` (R248). -/
def execCpyAbs (ll hh : Byte) (s : State) :
    Host.Outcome State Fault Refusal :=
  .next (executeRead (.mem (.abs ll hh)) cmpY s)

/-- INC zero page, `$E6` (R249). -/
def execIncZpg (nn : Byte) (s : State) :
    Host.Outcome State Fault Refusal :=
  .next (executeRmw (.zpg nn) (aluBody incAlu) s)

/-- INC absolute, `$EE` (R249). -/
def execIncAbs (ll hh : Byte) (s : State) :
    Host.Outcome State Fault Refusal :=
  .next (executeRmw (.abs ll hh) (aluBody incAlu) s)

/-- INC zero page,X, `$F6` (R249). -/
def execIncZpx (nn : Byte) (s : State) :
    Host.Outcome State Fault Refusal :=
  .next (executeRmw (.zpx nn) (aluBody incAlu) s)

/-- INC absolute,X, `$FE` (R249). -/
def execIncAbx (ll hh : Byte) (s : State) :
    Host.Outcome State Fault Refusal :=
  .next (executeRmw (.abx ll hh) (aluBody incAlu) s)

/-- DEC zero page, `$C6` (R250). -/
def execDecZpg (nn : Byte) (s : State) :
    Host.Outcome State Fault Refusal :=
  .next (executeRmw (.zpg nn) (aluBody decAlu) s)

/-- DEC absolute, `$CE` (R250). -/
def execDecAbs (ll hh : Byte) (s : State) :
    Host.Outcome State Fault Refusal :=
  .next (executeRmw (.abs ll hh) (aluBody decAlu) s)

/-- DEC zero page,X, `$D6` (R250). -/
def execDecZpx (nn : Byte) (s : State) :
    Host.Outcome State Fault Refusal :=
  .next (executeRmw (.zpx nn) (aluBody decAlu) s)

/-- DEC absolute,X, `$DE` (R250). -/
def execDecAbx (ll hh : Byte) (s : State) :
    Host.Outcome State Fault Refusal :=
  .next (executeRmw (.abx ll hh) (aluBody decAlu) s)

/-- INX implied, `$E8` (R251). -/
def execInx (s : State) :
    Host.Outcome State Fault Refusal :=
  .next (executeImp inxBody s)

/-- INY implied, `$C8` (R252). -/
def execIny (s : State) :
    Host.Outcome State Fault Refusal :=
  .next (executeImp inyBody s)

/-- DEX implied, `$CA` (R253). -/
def execDex (s : State) :
    Host.Outcome State Fault Refusal :=
  .next (executeImp dexBody s)

/-- DEY implied, `$88` (R254). -/
def execDey (s : State) :
    Host.Outcome State Fault Refusal :=
  .next (executeImp deyBody s)

end Sys2Proof.Machine
end

