-- ==== Sys2Proof/Machine/Control.lean ====
section
/-! DEFINITION. Branches, jumps, subroutines, BRK and RTI (45_control.md). -/

namespace Sys2Proof.Machine

/-! ### Shared bodies and sequences -/

/-- `Branch(flag, polarity)` (R300): the displacement is always fetched; a taken branch makes a dummy read
at PC and, when the target lies in another page, a second one at the target's low byte under the old
page. -/
def branch (f : Flag) (polarity : Bool) (dd : Byte) (s : State) : State :=
  let s1 := fetchOperand dd s
  if getFlag f s1.p == polarity then
    let target := s1.pc + sext16 dd
    let s2 := dummyRead s1.pc s1
    let s3 :=
      if hiByte target != hiByte s1.pc then dummyRead (word (hiByte s1.pc) (loByte target)) s2 else s2
    { s3 with pc := target }
  else s1

/-- JMP absolute (R309). -/
def jumpAbsolute (ll hh : Byte) (s : State) : State :=
  { fetchOperand hh (fetchOperand ll s) with pc := word hh ll }

/-- JMP indirect (R310): the pointer's second byte is read with no carry into its high byte. -/
def jumpIndirect (ll hh : Byte) (s : State) : State :=
  let s1 := fetchOperand hh (fetchOperand ll s)
  let lo := busRead (word hh ll) s1
  let hi := busRead (word hh (ll + 1)) lo.2
  { hi.2 with pc := word hi.1 lo.1 }

/-- JSR (R311): low byte, a dummy read of the stack, the two pushes of PC0 + 2, then the high byte. -/
def jumpSubroutine (ll : Byte) (s : State) : State :=
  let s1 := fetchOperand ll s
  let s2 := pushWord s1.pc (dummyRead (stackAddr s1.sp) s1)
  let hi := busRead s2.pc s2
  { hi.2 with pc := word hi.1 ll }

/-- RTS (R312). -/
def returnSubroutine (s : State) : State :=
  let s1 := dummyRead s.pc s
  let r := pullWord (dummyRead (stackAddr s1.sp) s1)
  { dummyRead r.1 r.2 with pc := r.1 + 1 }

/-- BRK (R313, R508): the padding byte is fetched and discarded, then the entry with B = 1. -/
def softwareInterrupt (s : State) : State := enterInterrupt irqVector true (fetch8 s).2

/-- RTI (R314). -/
def returnInterrupt (s : State) : State :=
  let s1 := dummyRead s.pc s
  returnFromInterrupt (dummyRead (stackAddr s1.sp) s1)

/-! ### The meanings -/

/-- BPL relative, `$10` (R301). -/
def execBpl (dd : Byte) (s : State) :
    Host.Outcome State Fault Refusal :=
  .next (branch .n false dd s)

/-- BMI relative, `$30` (R302). -/
def execBmi (dd : Byte) (s : State) :
    Host.Outcome State Fault Refusal :=
  .next (branch .n true dd s)

/-- BVC relative, `$50` (R303). -/
def execBvc (dd : Byte) (s : State) :
    Host.Outcome State Fault Refusal :=
  .next (branch .v false dd s)

/-- BVS relative, `$70` (R304). -/
def execBvs (dd : Byte) (s : State) :
    Host.Outcome State Fault Refusal :=
  .next (branch .v true dd s)

/-- BCC relative, `$90` (R305). -/
def execBcc (dd : Byte) (s : State) :
    Host.Outcome State Fault Refusal :=
  .next (branch .c false dd s)

/-- BCS relative, `$B0` (R306). -/
def execBcs (dd : Byte) (s : State) :
    Host.Outcome State Fault Refusal :=
  .next (branch .c true dd s)

/-- BNE relative, `$D0` (R307). -/
def execBne (dd : Byte) (s : State) :
    Host.Outcome State Fault Refusal :=
  .next (branch .z false dd s)

/-- BEQ relative, `$F0` (R308). -/
def execBeq (dd : Byte) (s : State) :
    Host.Outcome State Fault Refusal :=
  .next (branch .z true dd s)

/-- JMP absolute, `$4C` (R309). -/
def execJmpAbs (ll hh : Byte) (s : State) :
    Host.Outcome State Fault Refusal :=
  .next (jumpAbsolute ll hh s)

/-- JMP indirect, `$6C` (R310). -/
def execJmpInd (ll hh : Byte) (s : State) :
    Host.Outcome State Fault Refusal :=
  .next (jumpIndirect ll hh s)

/-- JSR absolute, `$20` (R311). 
The third byte is read after the pushes, so the meaning takes what the bus answers then, not `_hh`.
Log entry 8. -/
def execJsr (ll _hh : Byte) (s : State) :
    Host.Outcome State Fault Refusal :=
  .next (jumpSubroutine ll s)

/-- RTS implied, `$60` (R312). -/
def execRts (s : State) :
    Host.Outcome State Fault Refusal :=
  .next (returnSubroutine s)

/-- BRK implied, `$00` (R313). -/
def execBrk (s : State) :
    Host.Outcome State Fault Refusal :=
  .next (softwareInterrupt s)

/-- RTI implied, `$40` (R314). -/
def execRti (s : State) :
    Host.Outcome State Fault Refusal :=
  .next (returnInterrupt s)

end Sys2Proof.Machine
end

