-- ==== Sys2Proof/Machine/IllegalCombined.lean ====
section
/-! DEFINITION. The combined read-modify-write opcodes, SAX and LAX (47_illegal_combined.md). -/

namespace Sys2Proof.Machine

/-! ### Shared bodies and sequences -/

/-- SLO (R380): shift left, then or into A. -/
def sloBody (v : Byte) (s : State) : Byte × State :=
  let r := aluBody aslAlu v s
  (r.1, ora8 r.1 r.2)

/-- RLA (R381): rotate left, then and into A. -/
def rlaBody (v : Byte) (s : State) : Byte × State :=
  let r := aluBody rolAlu v s
  (r.1, and8 r.1 r.2)

/-- SRE (R382): shift right, then exclusive-or into A. -/
def sreBody (v : Byte) (s : State) : Byte × State :=
  let r := aluBody lsrAlu v s
  (r.1, eor8 r.1 r.2)

/-- RRA (R383): rotate right, then add with the carry the rotate shifted out. -/
def rraBody (v : Byte) (s : State) : Byte × State :=
  let r := aluBody rorAlu v s
  (r.1, adc r.1 r.2)

/-- DCP (R384): decrement, then compare with A. -/
def dcpBody (v : Byte) (s : State) : Byte × State := (v - 1, cmpA (v - 1) s)

/-- ISC (R385): increment, then subtract from A. -/
def iscBody (v : Byte) (s : State) : Byte × State := (v + 1, sbc (v + 1) s)

/-- The byte of SAX (R386) and of SHA (R428) before its mask: A and X. -/
def saxByte (s : State) : Byte := s.a &&& s.x

/-- LAX (R387). -/
def laxBody (v : Byte) (s : State) : State := { s with a := v, x := v, p := setNz v s.p }

/-! ### The meanings -/

/-- SLO (zero page,X), `$03` (R380). -/
def execSloIzx (nn : Byte) (s : State) :
    Host.Outcome State Fault Refusal :=
  .next (executeRmw (.izx nn) sloBody s)

/-- SLO zero page, `$07` (R380). -/
def execSloZpg (nn : Byte) (s : State) :
    Host.Outcome State Fault Refusal :=
  .next (executeRmw (.zpg nn) sloBody s)

/-- SLO absolute, `$0F` (R380). -/
def execSloAbs (ll hh : Byte) (s : State) :
    Host.Outcome State Fault Refusal :=
  .next (executeRmw (.abs ll hh) sloBody s)

/-- SLO (zero page),Y, `$13` (R380). -/
def execSloIzy (nn : Byte) (s : State) :
    Host.Outcome State Fault Refusal :=
  .next (executeRmw (.izy nn) sloBody s)

/-- SLO zero page,X, `$17` (R380). -/
def execSloZpx (nn : Byte) (s : State) :
    Host.Outcome State Fault Refusal :=
  .next (executeRmw (.zpx nn) sloBody s)

/-- SLO absolute,Y, `$1B` (R380). -/
def execSloAby (ll hh : Byte) (s : State) :
    Host.Outcome State Fault Refusal :=
  .next (executeRmw (.aby ll hh) sloBody s)

/-- SLO absolute,X, `$1F` (R380). -/
def execSloAbx (ll hh : Byte) (s : State) :
    Host.Outcome State Fault Refusal :=
  .next (executeRmw (.abx ll hh) sloBody s)

/-- RLA (zero page,X), `$23` (R381). -/
def execRlaIzx (nn : Byte) (s : State) :
    Host.Outcome State Fault Refusal :=
  .next (executeRmw (.izx nn) rlaBody s)

/-- RLA zero page, `$27` (R381). -/
def execRlaZpg (nn : Byte) (s : State) :
    Host.Outcome State Fault Refusal :=
  .next (executeRmw (.zpg nn) rlaBody s)

/-- RLA absolute, `$2F` (R381). -/
def execRlaAbs (ll hh : Byte) (s : State) :
    Host.Outcome State Fault Refusal :=
  .next (executeRmw (.abs ll hh) rlaBody s)

/-- RLA (zero page),Y, `$33` (R381). -/
def execRlaIzy (nn : Byte) (s : State) :
    Host.Outcome State Fault Refusal :=
  .next (executeRmw (.izy nn) rlaBody s)

/-- RLA zero page,X, `$37` (R381). -/
def execRlaZpx (nn : Byte) (s : State) :
    Host.Outcome State Fault Refusal :=
  .next (executeRmw (.zpx nn) rlaBody s)

/-- RLA absolute,Y, `$3B` (R381). -/
def execRlaAby (ll hh : Byte) (s : State) :
    Host.Outcome State Fault Refusal :=
  .next (executeRmw (.aby ll hh) rlaBody s)

/-- RLA absolute,X, `$3F` (R381). -/
def execRlaAbx (ll hh : Byte) (s : State) :
    Host.Outcome State Fault Refusal :=
  .next (executeRmw (.abx ll hh) rlaBody s)

/-- SRE (zero page,X), `$43` (R382). -/
def execSreIzx (nn : Byte) (s : State) :
    Host.Outcome State Fault Refusal :=
  .next (executeRmw (.izx nn) sreBody s)

/-- SRE zero page, `$47` (R382). -/
def execSreZpg (nn : Byte) (s : State) :
    Host.Outcome State Fault Refusal :=
  .next (executeRmw (.zpg nn) sreBody s)

/-- SRE absolute, `$4F` (R382). -/
def execSreAbs (ll hh : Byte) (s : State) :
    Host.Outcome State Fault Refusal :=
  .next (executeRmw (.abs ll hh) sreBody s)

/-- SRE (zero page),Y, `$53` (R382). -/
def execSreIzy (nn : Byte) (s : State) :
    Host.Outcome State Fault Refusal :=
  .next (executeRmw (.izy nn) sreBody s)

/-- SRE zero page,X, `$57` (R382). -/
def execSreZpx (nn : Byte) (s : State) :
    Host.Outcome State Fault Refusal :=
  .next (executeRmw (.zpx nn) sreBody s)

/-- SRE absolute,Y, `$5B` (R382). -/
def execSreAby (ll hh : Byte) (s : State) :
    Host.Outcome State Fault Refusal :=
  .next (executeRmw (.aby ll hh) sreBody s)

/-- SRE absolute,X, `$5F` (R382). -/
def execSreAbx (ll hh : Byte) (s : State) :
    Host.Outcome State Fault Refusal :=
  .next (executeRmw (.abx ll hh) sreBody s)

/-- RRA (zero page,X), `$63` (R383). -/
def execRraIzx (nn : Byte) (s : State) :
    Host.Outcome State Fault Refusal :=
  .next (executeRmw (.izx nn) rraBody s)

/-- RRA zero page, `$67` (R383). -/
def execRraZpg (nn : Byte) (s : State) :
    Host.Outcome State Fault Refusal :=
  .next (executeRmw (.zpg nn) rraBody s)

/-- RRA absolute, `$6F` (R383). -/
def execRraAbs (ll hh : Byte) (s : State) :
    Host.Outcome State Fault Refusal :=
  .next (executeRmw (.abs ll hh) rraBody s)

/-- RRA (zero page),Y, `$73` (R383). -/
def execRraIzy (nn : Byte) (s : State) :
    Host.Outcome State Fault Refusal :=
  .next (executeRmw (.izy nn) rraBody s)

/-- RRA zero page,X, `$77` (R383). -/
def execRraZpx (nn : Byte) (s : State) :
    Host.Outcome State Fault Refusal :=
  .next (executeRmw (.zpx nn) rraBody s)

/-- RRA absolute,Y, `$7B` (R383). -/
def execRraAby (ll hh : Byte) (s : State) :
    Host.Outcome State Fault Refusal :=
  .next (executeRmw (.aby ll hh) rraBody s)

/-- RRA absolute,X, `$7F` (R383). -/
def execRraAbx (ll hh : Byte) (s : State) :
    Host.Outcome State Fault Refusal :=
  .next (executeRmw (.abx ll hh) rraBody s)

/-- DCP (zero page,X), `$C3` (R384). -/
def execDcpIzx (nn : Byte) (s : State) :
    Host.Outcome State Fault Refusal :=
  .next (executeRmw (.izx nn) dcpBody s)

/-- DCP zero page, `$C7` (R384). -/
def execDcpZpg (nn : Byte) (s : State) :
    Host.Outcome State Fault Refusal :=
  .next (executeRmw (.zpg nn) dcpBody s)

/-- DCP absolute, `$CF` (R384). -/
def execDcpAbs (ll hh : Byte) (s : State) :
    Host.Outcome State Fault Refusal :=
  .next (executeRmw (.abs ll hh) dcpBody s)

/-- DCP (zero page),Y, `$D3` (R384). -/
def execDcpIzy (nn : Byte) (s : State) :
    Host.Outcome State Fault Refusal :=
  .next (executeRmw (.izy nn) dcpBody s)

/-- DCP zero page,X, `$D7` (R384). -/
def execDcpZpx (nn : Byte) (s : State) :
    Host.Outcome State Fault Refusal :=
  .next (executeRmw (.zpx nn) dcpBody s)

/-- DCP absolute,Y, `$DB` (R384). -/
def execDcpAby (ll hh : Byte) (s : State) :
    Host.Outcome State Fault Refusal :=
  .next (executeRmw (.aby ll hh) dcpBody s)

/-- DCP absolute,X, `$DF` (R384). -/
def execDcpAbx (ll hh : Byte) (s : State) :
    Host.Outcome State Fault Refusal :=
  .next (executeRmw (.abx ll hh) dcpBody s)

/-- ISC (zero page,X), `$E3` (R385). -/
def execIscIzx (nn : Byte) (s : State) :
    Host.Outcome State Fault Refusal :=
  .next (executeRmw (.izx nn) iscBody s)

/-- ISC zero page, `$E7` (R385). -/
def execIscZpg (nn : Byte) (s : State) :
    Host.Outcome State Fault Refusal :=
  .next (executeRmw (.zpg nn) iscBody s)

/-- ISC absolute, `$EF` (R385). -/
def execIscAbs (ll hh : Byte) (s : State) :
    Host.Outcome State Fault Refusal :=
  .next (executeRmw (.abs ll hh) iscBody s)

/-- ISC (zero page),Y, `$F3` (R385). -/
def execIscIzy (nn : Byte) (s : State) :
    Host.Outcome State Fault Refusal :=
  .next (executeRmw (.izy nn) iscBody s)

/-- ISC zero page,X, `$F7` (R385). -/
def execIscZpx (nn : Byte) (s : State) :
    Host.Outcome State Fault Refusal :=
  .next (executeRmw (.zpx nn) iscBody s)

/-- ISC absolute,Y, `$FB` (R385). -/
def execIscAby (ll hh : Byte) (s : State) :
    Host.Outcome State Fault Refusal :=
  .next (executeRmw (.aby ll hh) iscBody s)

/-- ISC absolute,X, `$FF` (R385). -/
def execIscAbx (ll hh : Byte) (s : State) :
    Host.Outcome State Fault Refusal :=
  .next (executeRmw (.abx ll hh) iscBody s)

/-- SAX (zero page,X), `$83` (R386). -/
def execSaxIzx (nn : Byte) (s : State) :
    Host.Outcome State Fault Refusal :=
  .next (executeWrite (.izx nn) saxByte s)

/-- SAX zero page, `$87` (R386). -/
def execSaxZpg (nn : Byte) (s : State) :
    Host.Outcome State Fault Refusal :=
  .next (executeWrite (.zpg nn) saxByte s)

/-- SAX absolute, `$8F` (R386). -/
def execSaxAbs (ll hh : Byte) (s : State) :
    Host.Outcome State Fault Refusal :=
  .next (executeWrite (.abs ll hh) saxByte s)

/-- SAX zero page,Y, `$97` (R386). -/
def execSaxZpy (nn : Byte) (s : State) :
    Host.Outcome State Fault Refusal :=
  .next (executeWrite (.zpy nn) saxByte s)

/-- LAX (zero page,X), `$A3` (R387). -/
def execLaxIzx (nn : Byte) (s : State) :
    Host.Outcome State Fault Refusal :=
  .next (executeRead (.mem (.izx nn)) laxBody s)

/-- LAX zero page, `$A7` (R387). -/
def execLaxZpg (nn : Byte) (s : State) :
    Host.Outcome State Fault Refusal :=
  .next (executeRead (.mem (.zpg nn)) laxBody s)

/-- LAX absolute, `$AF` (R387). -/
def execLaxAbs (ll hh : Byte) (s : State) :
    Host.Outcome State Fault Refusal :=
  .next (executeRead (.mem (.abs ll hh)) laxBody s)

/-- LAX (zero page),Y, `$B3` (R387). -/
def execLaxIzy (nn : Byte) (s : State) :
    Host.Outcome State Fault Refusal :=
  .next (executeRead (.mem (.izy nn)) laxBody s)

/-- LAX zero page,Y, `$B7` (R387). -/
def execLaxZpy (nn : Byte) (s : State) :
    Host.Outcome State Fault Refusal :=
  .next (executeRead (.mem (.zpy nn)) laxBody s)

/-- LAX absolute,Y, `$BF` (R387). -/
def execLaxAby (ll hh : Byte) (s : State) :
    Host.Outcome State Fault Refusal :=
  .next (executeRead (.mem (.aby ll hh)) laxBody s)

end Sys2Proof.Machine
end

