-- ==== Sys2Proof/Machine/IllegalOther.lean ====
section
/-! DEFINITION. The other illegal opcodes (48_illegal_other.md). -/

namespace Sys2Proof.Machine

/-! ### Shared bodies and sequences -/

/-- A to be replaced by the result of an ALU function of A, the operand and P. -/
def accumulate (f : Byte → Byte → Byte → Byte × Byte) (val : Byte) (s : State) : State :=
  let r := f s.a val s.p
  { s with a := r.1, p := r.2 }

/-- ANC (R420). -/
def ancBody (val : Byte) (s : State) : State := accumulate ancAlu val s

/-- ALR (R421). -/
def alrBody (val : Byte) (s : State) : State := accumulate alrAlu val s

/-- ARR (R422). -/
def arrBody (val : Byte) (s : State) : State := accumulate arrAlu val s

/-- ANE (R423); its N and Z are the spec's decision D17, log entry 15. -/
def aneBody (val : Byte) (s : State) : State := loadA (aneValue s.a s.x val) s

/-- LXA (R424); its N and Z are the spec's decision D17, log entry 15. -/
def lxaBody (val : Byte) (s : State) : State :=
  let v := lxaValue s.a val
  { s with a := v, x := v, p := setNz v s.p }

/-- SBX (R425): X and the flags; A stays. -/
def sbxBody (val : Byte) (s : State) : State :=
  let r := sbxAlu s.a s.x val s.p
  { s with x := r.1, p := r.2 }

/-- LAS (R426): A, X and SP become SP and `val`. -/
def lasBody (val : Byte) (s : State) : State :=
  let t := s.sp &&& val
  { s with a := t, x := t, sp := t, p := setNz t s.p }

/-- The empty body of the NOPs that read an operand (R433). -/
def nopBody (_val : Byte) (s : State) : State := s

/-- STP (R434). -/
def stopBody (s : State) : State := { s with halted := true }

/-! ### The meanings -/

/-- ANC immediate, `$0B, $2B` (R420). -/
def execAncImm (_op : AncImmOpcode) (nn : Byte) (s : State) :
    Host.Outcome State Fault Refusal :=
  .next (executeRead (.imm nn) ancBody s)

/-- ALR immediate, `$4B` (R421). -/
def execAlrImm (nn : Byte) (s : State) :
    Host.Outcome State Fault Refusal :=
  .next (executeRead (.imm nn) alrBody s)

/-- ARR immediate, `$6B` (R422). -/
def execArrImm (nn : Byte) (s : State) :
    Host.Outcome State Fault Refusal :=
  .next (executeRead (.imm nn) arrBody s)

/-- ANE immediate, `$8B` (R423). -/
def execAneImm (nn : Byte) (s : State) :
    Host.Outcome State Fault Refusal :=
  .next (executeRead (.imm nn) aneBody s)

/-- LXA immediate, `$AB` (R424). -/
def execLxaImm (nn : Byte) (s : State) :
    Host.Outcome State Fault Refusal :=
  .next (executeRead (.imm nn) lxaBody s)

/-- SBX immediate, `$CB` (R425). -/
def execSbxImm (nn : Byte) (s : State) :
    Host.Outcome State Fault Refusal :=
  .next (executeRead (.imm nn) sbxBody s)

/-- LAS absolute,Y, `$BB` (R426). -/
def execLasAby (ll hh : Byte) (s : State) :
    Host.Outcome State Fault Refusal :=
  .next (executeRead (.mem (.aby ll hh)) lasBody s)

/-- SHA (zero page),Y, `$93` (R428). -/
def execShaIzy (nn : Byte) (s : State) :
    Host.Outcome State Fault Refusal :=
  .next (executeHighStore (.izy nn) saxByte s)

/-- SHA absolute,Y, `$9F` (R428). -/
def execShaAby (ll hh : Byte) (s : State) :
    Host.Outcome State Fault Refusal :=
  .next (executeHighStore (.aby ll hh) saxByte s)

/-- SHX absolute,Y, `$9E` (R429). -/
def execShxAby (ll hh : Byte) (s : State) :
    Host.Outcome State Fault Refusal :=
  .next (executeHighStore (.aby ll hh) State.x s)

/-- SHY absolute,X, `$9C` (R430). -/
def execShyAbx (ll hh : Byte) (s : State) :
    Host.Outcome State Fault Refusal :=
  .next (executeHighStore (.abx ll hh) State.y s)

/-- TAS absolute,Y, `$9B` (R431). -/
def execTasAby (ll hh : Byte) (s : State) :
    Host.Outcome State Fault Refusal :=
  .next (executeHighStore (.aby ll hh) State.sp { s with sp := s.a &&& s.x })

/-- SBC immediate, `$EB` (R432). -/
def execSbcImmEB (nn : Byte) (s : State) :
    Host.Outcome State Fault Refusal :=
  .next (executeRead (.imm nn) sbc s)

/-- NOP zero page, `$04, $44, $64` (R433). -/
def execNopZpg (_op : NopZpgOpcode) (nn : Byte) (s : State) :
    Host.Outcome State Fault Refusal :=
  .next (executeRead (.mem (.zpg nn)) nopBody s)

/-- NOP absolute, `$0C` (R433). -/
def execNopAbs (ll hh : Byte) (s : State) :
    Host.Outcome State Fault Refusal :=
  .next (executeRead (.mem (.abs ll hh)) nopBody s)

/-- NOP zero page,X, `$14, $34, $54, $74, $D4, $F4` (R433). -/
def execNopZpx (_op : NopZpxOpcode) (nn : Byte) (s : State) :
    Host.Outcome State Fault Refusal :=
  .next (executeRead (.mem (.zpx nn)) nopBody s)

/-- NOP implied, `$1A, $3A, $5A, $7A, $DA, $FA` (R433). -/
def execNopImp (_op : NopImpOpcode) (s : State) :
    Host.Outcome State Fault Refusal :=
  .next (executeImp id s)

/-- NOP absolute,X, `$1C, $3C, $5C, $7C, $DC, $FC` (R433). -/
def execNopAbx (_op : NopAbxOpcode) (ll hh : Byte) (s : State) :
    Host.Outcome State Fault Refusal :=
  .next (executeRead (.mem (.abx ll hh)) nopBody s)

/-- NOP immediate, `$80, $82, $89, $C2, $E2` (R433). -/
def execNopImm (_op : NopImmOpcode) (nn : Byte) (s : State) :
    Host.Outcome State Fault Refusal :=
  .next (executeRead (.imm nn) nopBody s)

/-- STP implied, `$02, $12, $22, $32, $42, $52, $62, $72, $92, $B2, $D2, $F2` (R434). -/
def execStp (_op : StpOpcode) (s : State) :
    Host.Outcome State Fault Refusal :=
  .next (executeImp stopBody s)

end Sys2Proof.Machine
end

