-- ==== Sys2Proof/Machine/LoadStore.lean ====
section
/-! DEFINITION. Loads, stores and register transfers (42_load_store_transfer.md). -/

namespace Sys2Proof.Machine

/-! ### Shared bodies and sequences -/

/-- TAX (R206). -/
def taxBody (s : State) : State := loadX s.a s

/-- TAY (R207). -/
def tayBody (s : State) : State := loadY s.a s

/-- TXA (R208). -/
def txaBody (s : State) : State := loadA s.x s

/-- TYA (R209). -/
def tyaBody (s : State) : State := loadA s.y s

/-- TSX (R210): the raw SP. -/
def tsxBody (s : State) : State := loadX s.sp s

/-- TXS (R211): no flag is written. -/
def txsBody (s : State) : State := { s with sp := s.x }

/-! ### The meanings -/

/-- LDA (zero page,X), `$A1` (R200). -/
def execLdaIzx (nn : Byte) (s : State) :
    Host.Outcome State Fault Refusal :=
  .next (executeRead (.mem (.izx nn)) loadA s)

/-- LDA zero page, `$A5` (R200). -/
def execLdaZpg (nn : Byte) (s : State) :
    Host.Outcome State Fault Refusal :=
  .next (executeRead (.mem (.zpg nn)) loadA s)

/-- LDA immediate, `$A9` (R200). -/
def execLdaImm (nn : Byte) (s : State) :
    Host.Outcome State Fault Refusal :=
  .next (executeRead (.imm nn) loadA s)

/-- LDA absolute, `$AD` (R200). -/
def execLdaAbs (ll hh : Byte) (s : State) :
    Host.Outcome State Fault Refusal :=
  .next (executeRead (.mem (.abs ll hh)) loadA s)

/-- LDA (zero page),Y, `$B1` (R200). -/
def execLdaIzy (nn : Byte) (s : State) :
    Host.Outcome State Fault Refusal :=
  .next (executeRead (.mem (.izy nn)) loadA s)

/-- LDA zero page,X, `$B5` (R200). -/
def execLdaZpx (nn : Byte) (s : State) :
    Host.Outcome State Fault Refusal :=
  .next (executeRead (.mem (.zpx nn)) loadA s)

/-- LDA absolute,Y, `$B9` (R200). -/
def execLdaAby (ll hh : Byte) (s : State) :
    Host.Outcome State Fault Refusal :=
  .next (executeRead (.mem (.aby ll hh)) loadA s)

/-- LDA absolute,X, `$BD` (R200). -/
def execLdaAbx (ll hh : Byte) (s : State) :
    Host.Outcome State Fault Refusal :=
  .next (executeRead (.mem (.abx ll hh)) loadA s)

/-- LDX immediate, `$A2` (R201). -/
def execLdxImm (nn : Byte) (s : State) :
    Host.Outcome State Fault Refusal :=
  .next (executeRead (.imm nn) loadX s)

/-- LDX zero page, `$A6` (R201). -/
def execLdxZpg (nn : Byte) (s : State) :
    Host.Outcome State Fault Refusal :=
  .next (executeRead (.mem (.zpg nn)) loadX s)

/-- LDX absolute, `$AE` (R201). -/
def execLdxAbs (ll hh : Byte) (s : State) :
    Host.Outcome State Fault Refusal :=
  .next (executeRead (.mem (.abs ll hh)) loadX s)

/-- LDX zero page,Y, `$B6` (R201). -/
def execLdxZpy (nn : Byte) (s : State) :
    Host.Outcome State Fault Refusal :=
  .next (executeRead (.mem (.zpy nn)) loadX s)

/-- LDX absolute,Y, `$BE` (R201). -/
def execLdxAby (ll hh : Byte) (s : State) :
    Host.Outcome State Fault Refusal :=
  .next (executeRead (.mem (.aby ll hh)) loadX s)

/-- LDY immediate, `$A0` (R202). -/
def execLdyImm (nn : Byte) (s : State) :
    Host.Outcome State Fault Refusal :=
  .next (executeRead (.imm nn) loadY s)

/-- LDY zero page, `$A4` (R202). -/
def execLdyZpg (nn : Byte) (s : State) :
    Host.Outcome State Fault Refusal :=
  .next (executeRead (.mem (.zpg nn)) loadY s)

/-- LDY absolute, `$AC` (R202). -/
def execLdyAbs (ll hh : Byte) (s : State) :
    Host.Outcome State Fault Refusal :=
  .next (executeRead (.mem (.abs ll hh)) loadY s)

/-- LDY zero page,X, `$B4` (R202). -/
def execLdyZpx (nn : Byte) (s : State) :
    Host.Outcome State Fault Refusal :=
  .next (executeRead (.mem (.zpx nn)) loadY s)

/-- LDY absolute,X, `$BC` (R202). -/
def execLdyAbx (ll hh : Byte) (s : State) :
    Host.Outcome State Fault Refusal :=
  .next (executeRead (.mem (.abx ll hh)) loadY s)

/-- STA (zero page,X), `$81` (R203). -/
def execStaIzx (nn : Byte) (s : State) :
    Host.Outcome State Fault Refusal :=
  .next (executeWrite (.izx nn) State.a s)

/-- STA zero page, `$85` (R203). -/
def execStaZpg (nn : Byte) (s : State) :
    Host.Outcome State Fault Refusal :=
  .next (executeWrite (.zpg nn) State.a s)

/-- STA absolute, `$8D` (R203). -/
def execStaAbs (ll hh : Byte) (s : State) :
    Host.Outcome State Fault Refusal :=
  .next (executeWrite (.abs ll hh) State.a s)

/-- STA (zero page),Y, `$91` (R203). -/
def execStaIzy (nn : Byte) (s : State) :
    Host.Outcome State Fault Refusal :=
  .next (executeWrite (.izy nn) State.a s)

/-- STA zero page,X, `$95` (R203). -/
def execStaZpx (nn : Byte) (s : State) :
    Host.Outcome State Fault Refusal :=
  .next (executeWrite (.zpx nn) State.a s)

/-- STA absolute,Y, `$99` (R203). -/
def execStaAby (ll hh : Byte) (s : State) :
    Host.Outcome State Fault Refusal :=
  .next (executeWrite (.aby ll hh) State.a s)

/-- STA absolute,X, `$9D` (R203). -/
def execStaAbx (ll hh : Byte) (s : State) :
    Host.Outcome State Fault Refusal :=
  .next (executeWrite (.abx ll hh) State.a s)

/-- STX zero page, `$86` (R204). -/
def execStxZpg (nn : Byte) (s : State) :
    Host.Outcome State Fault Refusal :=
  .next (executeWrite (.zpg nn) State.x s)

/-- STX absolute, `$8E` (R204). -/
def execStxAbs (ll hh : Byte) (s : State) :
    Host.Outcome State Fault Refusal :=
  .next (executeWrite (.abs ll hh) State.x s)

/-- STX zero page,Y, `$96` (R204). -/
def execStxZpy (nn : Byte) (s : State) :
    Host.Outcome State Fault Refusal :=
  .next (executeWrite (.zpy nn) State.x s)

/-- STY zero page, `$84` (R205). -/
def execStyZpg (nn : Byte) (s : State) :
    Host.Outcome State Fault Refusal :=
  .next (executeWrite (.zpg nn) State.y s)

/-- STY absolute, `$8C` (R205). -/
def execStyAbs (ll hh : Byte) (s : State) :
    Host.Outcome State Fault Refusal :=
  .next (executeWrite (.abs ll hh) State.y s)

/-- STY zero page,X, `$94` (R205). -/
def execStyZpx (nn : Byte) (s : State) :
    Host.Outcome State Fault Refusal :=
  .next (executeWrite (.zpx nn) State.y s)

/-- TAX implied, `$AA` (R206). -/
def execTax (s : State) :
    Host.Outcome State Fault Refusal :=
  .next (executeImp taxBody s)

/-- TAY implied, `$A8` (R207). -/
def execTay (s : State) :
    Host.Outcome State Fault Refusal :=
  .next (executeImp tayBody s)

/-- TXA implied, `$8A` (R208). -/
def execTxa (s : State) :
    Host.Outcome State Fault Refusal :=
  .next (executeImp txaBody s)

/-- TYA implied, `$98` (R209). -/
def execTya (s : State) :
    Host.Outcome State Fault Refusal :=
  .next (executeImp tyaBody s)

/-- TSX implied, `$BA` (R210). -/
def execTsx (s : State) :
    Host.Outcome State Fault Refusal :=
  .next (executeImp tsxBody s)

/-- TXS implied, `$9A` (R211). No flag is written. -/
def execTxs (s : State) :
    Host.Outcome State Fault Refusal :=
  .next (executeImp txsBody s)

end Sys2Proof.Machine
end

