-- ==== Sys2Proof/Machine/Shift.lean ====
section
/-! DEFINITION. Shifts and rotates, on A and on memory (44_shift_rotate.md). -/

namespace Sys2Proof.Machine

/-! ### The meanings -/

/-- ASL zero page, `$06` (R280). -/
def execAslZpg (nn : Byte) (s : State) :
    Host.Outcome State Fault Refusal :=
  .next (executeRmw (.zpg nn) (aluBody aslAlu) s)

/-- ASL accumulator, `$0A` (R280). -/
def execAslAcc (s : State) :
    Host.Outcome State Fault Refusal :=
  .next (executeAcc aslAlu s)

/-- ASL absolute, `$0E` (R280). -/
def execAslAbs (ll hh : Byte) (s : State) :
    Host.Outcome State Fault Refusal :=
  .next (executeRmw (.abs ll hh) (aluBody aslAlu) s)

/-- ASL zero page,X, `$16` (R280). -/
def execAslZpx (nn : Byte) (s : State) :
    Host.Outcome State Fault Refusal :=
  .next (executeRmw (.zpx nn) (aluBody aslAlu) s)

/-- ASL absolute,X, `$1E` (R280). -/
def execAslAbx (ll hh : Byte) (s : State) :
    Host.Outcome State Fault Refusal :=
  .next (executeRmw (.abx ll hh) (aluBody aslAlu) s)

/-- LSR zero page, `$46` (R281). -/
def execLsrZpg (nn : Byte) (s : State) :
    Host.Outcome State Fault Refusal :=
  .next (executeRmw (.zpg nn) (aluBody lsrAlu) s)

/-- LSR accumulator, `$4A` (R281). -/
def execLsrAcc (s : State) :
    Host.Outcome State Fault Refusal :=
  .next (executeAcc lsrAlu s)

/-- LSR absolute, `$4E` (R281). -/
def execLsrAbs (ll hh : Byte) (s : State) :
    Host.Outcome State Fault Refusal :=
  .next (executeRmw (.abs ll hh) (aluBody lsrAlu) s)

/-- LSR zero page,X, `$56` (R281). -/
def execLsrZpx (nn : Byte) (s : State) :
    Host.Outcome State Fault Refusal :=
  .next (executeRmw (.zpx nn) (aluBody lsrAlu) s)

/-- LSR absolute,X, `$5E` (R281). -/
def execLsrAbx (ll hh : Byte) (s : State) :
    Host.Outcome State Fault Refusal :=
  .next (executeRmw (.abx ll hh) (aluBody lsrAlu) s)

/-- ROL zero page, `$26` (R282). -/
def execRolZpg (nn : Byte) (s : State) :
    Host.Outcome State Fault Refusal :=
  .next (executeRmw (.zpg nn) (aluBody rolAlu) s)

/-- ROL accumulator, `$2A` (R282). -/
def execRolAcc (s : State) :
    Host.Outcome State Fault Refusal :=
  .next (executeAcc rolAlu s)

/-- ROL absolute, `$2E` (R282). -/
def execRolAbs (ll hh : Byte) (s : State) :
    Host.Outcome State Fault Refusal :=
  .next (executeRmw (.abs ll hh) (aluBody rolAlu) s)

/-- ROL zero page,X, `$36` (R282). -/
def execRolZpx (nn : Byte) (s : State) :
    Host.Outcome State Fault Refusal :=
  .next (executeRmw (.zpx nn) (aluBody rolAlu) s)

/-- ROL absolute,X, `$3E` (R282). -/
def execRolAbx (ll hh : Byte) (s : State) :
    Host.Outcome State Fault Refusal :=
  .next (executeRmw (.abx ll hh) (aluBody rolAlu) s)

/-- ROR zero page, `$66` (R283). -/
def execRorZpg (nn : Byte) (s : State) :
    Host.Outcome State Fault Refusal :=
  .next (executeRmw (.zpg nn) (aluBody rorAlu) s)

/-- ROR accumulator, `$6A` (R283). -/
def execRorAcc (s : State) :
    Host.Outcome State Fault Refusal :=
  .next (executeAcc rorAlu s)

/-- ROR absolute, `$6E` (R283). -/
def execRorAbs (ll hh : Byte) (s : State) :
    Host.Outcome State Fault Refusal :=
  .next (executeRmw (.abs ll hh) (aluBody rorAlu) s)

/-- ROR zero page,X, `$76` (R283). -/
def execRorZpx (nn : Byte) (s : State) :
    Host.Outcome State Fault Refusal :=
  .next (executeRmw (.zpx nn) (aluBody rorAlu) s)

/-- ROR absolute,X, `$7E` (R283). -/
def execRorAbx (ll hh : Byte) (s : State) :
    Host.Outcome State Fault Refusal :=
  .next (executeRmw (.abx ll hh) (aluBody rorAlu) s)

end Sys2Proof.Machine
end

