-- ==== Sys2Proof/Machine/StackFlags.lean ====
section
/-! DEFINITION. Stack instructions, flag instructions and the documented NOP (46_stack_flags_nop.md). -/

namespace Sys2Proof.Machine

/-! ### Shared bodies and sequences -/

/-- PHA (R340). -/
def pushA (s : State) : State :=
  let s1 := dummyRead s.pc s
  push s1.a s1

/-- PHP (R341): P with B and U forced to 1. -/
def pushP (s : State) : State :=
  let s1 := dummyRead s.pc s
  push (pushRepr true s1.p) s1

/-- PLA (R342). -/
def pullA (s : State) : State :=
  let s1 := dummyRead s.pc s
  let v := pull (dummyRead (stackAddr s1.sp) s1)
  loadA v.1 v.2

/-- PLP (R343): B and U keep their values. -/
def pullP (s : State) : State :=
  let s1 := dummyRead s.pc s
  let v := pull (dummyRead (stackAddr s1.sp) s1)
  { v.2 with p := pullRepr v.1 v.2.p }

/-- A flag instruction sets one flag (R344 to R350). -/
def flagBody (f : Flag) (on : Bool) (s : State) : State := { s with p := setFlag f on s.p }

/-! ### The meanings -/

/-- PHA implied, `$48` (R340). -/
def execPha (s : State) :
    Host.Outcome State Fault Refusal :=
  .next (pushA s)

/-- PHP implied, `$08` (R341). -/
def execPhp (s : State) :
    Host.Outcome State Fault Refusal :=
  .next (pushP s)

/-- PLA implied, `$68` (R342). -/
def execPla (s : State) :
    Host.Outcome State Fault Refusal :=
  .next (pullA s)

/-- PLP implied, `$28` (R343). -/
def execPlp (s : State) :
    Host.Outcome State Fault Refusal :=
  .next (pullP s)

/-- CLC implied, `$18` (R344). -/
def execClc (s : State) :
    Host.Outcome State Fault Refusal :=
  .next (executeImp (flagBody .c false) s)

/-- SEC implied, `$38` (R345). -/
def execSec (s : State) :
    Host.Outcome State Fault Refusal :=
  .next (executeImp (flagBody .c true) s)

/-- CLI implied, `$58` (R346). -/
def execCli (s : State) :
    Host.Outcome State Fault Refusal :=
  .next (executeImp (flagBody .i false) s)

/-- SEI implied, `$78` (R347). -/
def execSei (s : State) :
    Host.Outcome State Fault Refusal :=
  .next (executeImp (flagBody .i true) s)

/-- CLV implied, `$B8` (R348). -/
def execClv (s : State) :
    Host.Outcome State Fault Refusal :=
  .next (executeImp (flagBody .v false) s)

/-- CLD implied, `$D8` (R349). -/
def execCld (s : State) :
    Host.Outcome State Fault Refusal :=
  .next (executeImp (flagBody .d false) s)

/-- SED implied, `$F8` (R350). -/
def execSed (s : State) :
    Host.Outcome State Fault Refusal :=
  .next (executeImp (flagBody .d true) s)

/-- NOP implied, `$EA` (R351). -/
def execNop (s : State) :
    Host.Outcome State Fault Refusal :=
  .next (executeImp id s)

end Sys2Proof.Machine
end

