-- ==== Sys2Proof/Machine/Dispatch.lean ====
section
/-! DEFINITION. The dispatch (R473): one arm per constructor of Instr. -/

namespace Sys2Proof.Machine

-- The meaning of an instruction, entered with PC = PC0 + 1 (R13).
def exec (i : Instr) (s : State) : Host.Outcome State Fault Refusal :=
  match i with
  -- LoadStore.lean
  | .ldaIzx nn => Sys2Proof.Machine.execLdaIzx nn s
  | .ldaZpg nn => Sys2Proof.Machine.execLdaZpg nn s
  | .ldaImm nn => Sys2Proof.Machine.execLdaImm nn s
  | .ldaAbs ll hh => Sys2Proof.Machine.execLdaAbs ll hh s
  | .ldaIzy nn => Sys2Proof.Machine.execLdaIzy nn s
  | .ldaZpx nn => Sys2Proof.Machine.execLdaZpx nn s
  | .ldaAby ll hh => Sys2Proof.Machine.execLdaAby ll hh s
  | .ldaAbx ll hh => Sys2Proof.Machine.execLdaAbx ll hh s
  | .ldxImm nn => Sys2Proof.Machine.execLdxImm nn s
  | .ldxZpg nn => Sys2Proof.Machine.execLdxZpg nn s
  | .ldxAbs ll hh => Sys2Proof.Machine.execLdxAbs ll hh s
  | .ldxZpy nn => Sys2Proof.Machine.execLdxZpy nn s
  | .ldxAby ll hh => Sys2Proof.Machine.execLdxAby ll hh s
  | .ldyImm nn => Sys2Proof.Machine.execLdyImm nn s
  | .ldyZpg nn => Sys2Proof.Machine.execLdyZpg nn s
  | .ldyAbs ll hh => Sys2Proof.Machine.execLdyAbs ll hh s
  | .ldyZpx nn => Sys2Proof.Machine.execLdyZpx nn s
  | .ldyAbx ll hh => Sys2Proof.Machine.execLdyAbx ll hh s
  | .staIzx nn => Sys2Proof.Machine.execStaIzx nn s
  | .staZpg nn => Sys2Proof.Machine.execStaZpg nn s
  | .staAbs ll hh => Sys2Proof.Machine.execStaAbs ll hh s
  | .staIzy nn => Sys2Proof.Machine.execStaIzy nn s
  | .staZpx nn => Sys2Proof.Machine.execStaZpx nn s
  | .staAby ll hh => Sys2Proof.Machine.execStaAby ll hh s
  | .staAbx ll hh => Sys2Proof.Machine.execStaAbx ll hh s
  | .stxZpg nn => Sys2Proof.Machine.execStxZpg nn s
  | .stxAbs ll hh => Sys2Proof.Machine.execStxAbs ll hh s
  | .stxZpy nn => Sys2Proof.Machine.execStxZpy nn s
  | .styZpg nn => Sys2Proof.Machine.execStyZpg nn s
  | .styAbs ll hh => Sys2Proof.Machine.execStyAbs ll hh s
  | .styZpx nn => Sys2Proof.Machine.execStyZpx nn s
  | .tax => Sys2Proof.Machine.execTax s
  | .tay => Sys2Proof.Machine.execTay s
  | .txa => Sys2Proof.Machine.execTxa s
  | .tya => Sys2Proof.Machine.execTya s
  | .tsx => Sys2Proof.Machine.execTsx s
  | .txs => Sys2Proof.Machine.execTxs s
  -- Arith.lean
  | .adcIzx nn => Sys2Proof.Machine.execAdcIzx nn s
  | .adcZpg nn => Sys2Proof.Machine.execAdcZpg nn s
  | .adcImm nn => Sys2Proof.Machine.execAdcImm nn s
  | .adcAbs ll hh => Sys2Proof.Machine.execAdcAbs ll hh s
  | .adcIzy nn => Sys2Proof.Machine.execAdcIzy nn s
  | .adcZpx nn => Sys2Proof.Machine.execAdcZpx nn s
  | .adcAby ll hh => Sys2Proof.Machine.execAdcAby ll hh s
  | .adcAbx ll hh => Sys2Proof.Machine.execAdcAbx ll hh s
  | .sbcIzx nn => Sys2Proof.Machine.execSbcIzx nn s
  | .sbcZpg nn => Sys2Proof.Machine.execSbcZpg nn s
  | .sbcImm nn => Sys2Proof.Machine.execSbcImm nn s
  | .sbcAbs ll hh => Sys2Proof.Machine.execSbcAbs ll hh s
  | .sbcIzy nn => Sys2Proof.Machine.execSbcIzy nn s
  | .sbcZpx nn => Sys2Proof.Machine.execSbcZpx nn s
  | .sbcAby ll hh => Sys2Proof.Machine.execSbcAby ll hh s
  | .sbcAbx ll hh => Sys2Proof.Machine.execSbcAbx ll hh s
  | .andIzx nn => Sys2Proof.Machine.execAndIzx nn s
  | .andZpg nn => Sys2Proof.Machine.execAndZpg nn s
  | .andImm nn => Sys2Proof.Machine.execAndImm nn s
  | .andAbs ll hh => Sys2Proof.Machine.execAndAbs ll hh s
  | .andIzy nn => Sys2Proof.Machine.execAndIzy nn s
  | .andZpx nn => Sys2Proof.Machine.execAndZpx nn s
  | .andAby ll hh => Sys2Proof.Machine.execAndAby ll hh s
  | .andAbx ll hh => Sys2Proof.Machine.execAndAbx ll hh s
  | .oraIzx nn => Sys2Proof.Machine.execOraIzx nn s
  | .oraZpg nn => Sys2Proof.Machine.execOraZpg nn s
  | .oraImm nn => Sys2Proof.Machine.execOraImm nn s
  | .oraAbs ll hh => Sys2Proof.Machine.execOraAbs ll hh s
  | .oraIzy nn => Sys2Proof.Machine.execOraIzy nn s
  | .oraZpx nn => Sys2Proof.Machine.execOraZpx nn s
  | .oraAby ll hh => Sys2Proof.Machine.execOraAby ll hh s
  | .oraAbx ll hh => Sys2Proof.Machine.execOraAbx ll hh s
  | .eorIzx nn => Sys2Proof.Machine.execEorIzx nn s
  | .eorZpg nn => Sys2Proof.Machine.execEorZpg nn s
  | .eorImm nn => Sys2Proof.Machine.execEorImm nn s
  | .eorAbs ll hh => Sys2Proof.Machine.execEorAbs ll hh s
  | .eorIzy nn => Sys2Proof.Machine.execEorIzy nn s
  | .eorZpx nn => Sys2Proof.Machine.execEorZpx nn s
  | .eorAby ll hh => Sys2Proof.Machine.execEorAby ll hh s
  | .eorAbx ll hh => Sys2Proof.Machine.execEorAbx ll hh s
  | .bitZpg nn => Sys2Proof.Machine.execBitZpg nn s
  | .bitAbs ll hh => Sys2Proof.Machine.execBitAbs ll hh s
  | .cmpIzx nn => Sys2Proof.Machine.execCmpIzx nn s
  | .cmpZpg nn => Sys2Proof.Machine.execCmpZpg nn s
  | .cmpImm nn => Sys2Proof.Machine.execCmpImm nn s
  | .cmpAbs ll hh => Sys2Proof.Machine.execCmpAbs ll hh s
  | .cmpIzy nn => Sys2Proof.Machine.execCmpIzy nn s
  | .cmpZpx nn => Sys2Proof.Machine.execCmpZpx nn s
  | .cmpAby ll hh => Sys2Proof.Machine.execCmpAby ll hh s
  | .cmpAbx ll hh => Sys2Proof.Machine.execCmpAbx ll hh s
  | .cpxImm nn => Sys2Proof.Machine.execCpxImm nn s
  | .cpxZpg nn => Sys2Proof.Machine.execCpxZpg nn s
  | .cpxAbs ll hh => Sys2Proof.Machine.execCpxAbs ll hh s
  | .cpyImm nn => Sys2Proof.Machine.execCpyImm nn s
  | .cpyZpg nn => Sys2Proof.Machine.execCpyZpg nn s
  | .cpyAbs ll hh => Sys2Proof.Machine.execCpyAbs ll hh s
  | .incZpg nn => Sys2Proof.Machine.execIncZpg nn s
  | .incAbs ll hh => Sys2Proof.Machine.execIncAbs ll hh s
  | .incZpx nn => Sys2Proof.Machine.execIncZpx nn s
  | .incAbx ll hh => Sys2Proof.Machine.execIncAbx ll hh s
  | .decZpg nn => Sys2Proof.Machine.execDecZpg nn s
  | .decAbs ll hh => Sys2Proof.Machine.execDecAbs ll hh s
  | .decZpx nn => Sys2Proof.Machine.execDecZpx nn s
  | .decAbx ll hh => Sys2Proof.Machine.execDecAbx ll hh s
  | .inx => Sys2Proof.Machine.execInx s
  | .iny => Sys2Proof.Machine.execIny s
  | .dex => Sys2Proof.Machine.execDex s
  | .dey => Sys2Proof.Machine.execDey s
  -- Shift.lean
  | .aslZpg nn => Sys2Proof.Machine.execAslZpg nn s
  | .aslAcc => Sys2Proof.Machine.execAslAcc s
  | .aslAbs ll hh => Sys2Proof.Machine.execAslAbs ll hh s
  | .aslZpx nn => Sys2Proof.Machine.execAslZpx nn s
  | .aslAbx ll hh => Sys2Proof.Machine.execAslAbx ll hh s
  | .lsrZpg nn => Sys2Proof.Machine.execLsrZpg nn s
  | .lsrAcc => Sys2Proof.Machine.execLsrAcc s
  | .lsrAbs ll hh => Sys2Proof.Machine.execLsrAbs ll hh s
  | .lsrZpx nn => Sys2Proof.Machine.execLsrZpx nn s
  | .lsrAbx ll hh => Sys2Proof.Machine.execLsrAbx ll hh s
  | .rolZpg nn => Sys2Proof.Machine.execRolZpg nn s
  | .rolAcc => Sys2Proof.Machine.execRolAcc s
  | .rolAbs ll hh => Sys2Proof.Machine.execRolAbs ll hh s
  | .rolZpx nn => Sys2Proof.Machine.execRolZpx nn s
  | .rolAbx ll hh => Sys2Proof.Machine.execRolAbx ll hh s
  | .rorZpg nn => Sys2Proof.Machine.execRorZpg nn s
  | .rorAcc => Sys2Proof.Machine.execRorAcc s
  | .rorAbs ll hh => Sys2Proof.Machine.execRorAbs ll hh s
  | .rorZpx nn => Sys2Proof.Machine.execRorZpx nn s
  | .rorAbx ll hh => Sys2Proof.Machine.execRorAbx ll hh s
  -- Control.lean
  | .bpl dd => Sys2Proof.Machine.execBpl dd s
  | .bmi dd => Sys2Proof.Machine.execBmi dd s
  | .bvc dd => Sys2Proof.Machine.execBvc dd s
  | .bvs dd => Sys2Proof.Machine.execBvs dd s
  | .bcc dd => Sys2Proof.Machine.execBcc dd s
  | .bcs dd => Sys2Proof.Machine.execBcs dd s
  | .bne dd => Sys2Proof.Machine.execBne dd s
  | .beq dd => Sys2Proof.Machine.execBeq dd s
  | .jmpAbs ll hh => Sys2Proof.Machine.execJmpAbs ll hh s
  | .jmpInd ll hh => Sys2Proof.Machine.execJmpInd ll hh s
  | .jsr ll hh => Sys2Proof.Machine.execJsr ll hh s
  | .rts => Sys2Proof.Machine.execRts s
  | .brk => Sys2Proof.Machine.execBrk s
  | .rti => Sys2Proof.Machine.execRti s
  -- StackFlags.lean
  | .pha => Sys2Proof.Machine.execPha s
  | .php => Sys2Proof.Machine.execPhp s
  | .pla => Sys2Proof.Machine.execPla s
  | .plp => Sys2Proof.Machine.execPlp s
  | .clc => Sys2Proof.Machine.execClc s
  | .sec => Sys2Proof.Machine.execSec s
  | .cli => Sys2Proof.Machine.execCli s
  | .sei => Sys2Proof.Machine.execSei s
  | .clv => Sys2Proof.Machine.execClv s
  | .cld => Sys2Proof.Machine.execCld s
  | .sed => Sys2Proof.Machine.execSed s
  | .nop => Sys2Proof.Machine.execNop s
  -- IllegalCombined.lean
  | .sloIzx nn => Sys2Proof.Machine.execSloIzx nn s
  | .sloZpg nn => Sys2Proof.Machine.execSloZpg nn s
  | .sloAbs ll hh => Sys2Proof.Machine.execSloAbs ll hh s
  | .sloIzy nn => Sys2Proof.Machine.execSloIzy nn s
  | .sloZpx nn => Sys2Proof.Machine.execSloZpx nn s
  | .sloAby ll hh => Sys2Proof.Machine.execSloAby ll hh s
  | .sloAbx ll hh => Sys2Proof.Machine.execSloAbx ll hh s
  | .rlaIzx nn => Sys2Proof.Machine.execRlaIzx nn s
  | .rlaZpg nn => Sys2Proof.Machine.execRlaZpg nn s
  | .rlaAbs ll hh => Sys2Proof.Machine.execRlaAbs ll hh s
  | .rlaIzy nn => Sys2Proof.Machine.execRlaIzy nn s
  | .rlaZpx nn => Sys2Proof.Machine.execRlaZpx nn s
  | .rlaAby ll hh => Sys2Proof.Machine.execRlaAby ll hh s
  | .rlaAbx ll hh => Sys2Proof.Machine.execRlaAbx ll hh s
  | .sreIzx nn => Sys2Proof.Machine.execSreIzx nn s
  | .sreZpg nn => Sys2Proof.Machine.execSreZpg nn s
  | .sreAbs ll hh => Sys2Proof.Machine.execSreAbs ll hh s
  | .sreIzy nn => Sys2Proof.Machine.execSreIzy nn s
  | .sreZpx nn => Sys2Proof.Machine.execSreZpx nn s
  | .sreAby ll hh => Sys2Proof.Machine.execSreAby ll hh s
  | .sreAbx ll hh => Sys2Proof.Machine.execSreAbx ll hh s
  | .rraIzx nn => Sys2Proof.Machine.execRraIzx nn s
  | .rraZpg nn => Sys2Proof.Machine.execRraZpg nn s
  | .rraAbs ll hh => Sys2Proof.Machine.execRraAbs ll hh s
  | .rraIzy nn => Sys2Proof.Machine.execRraIzy nn s
  | .rraZpx nn => Sys2Proof.Machine.execRraZpx nn s
  | .rraAby ll hh => Sys2Proof.Machine.execRraAby ll hh s
  | .rraAbx ll hh => Sys2Proof.Machine.execRraAbx ll hh s
  | .dcpIzx nn => Sys2Proof.Machine.execDcpIzx nn s
  | .dcpZpg nn => Sys2Proof.Machine.execDcpZpg nn s
  | .dcpAbs ll hh => Sys2Proof.Machine.execDcpAbs ll hh s
  | .dcpIzy nn => Sys2Proof.Machine.execDcpIzy nn s
  | .dcpZpx nn => Sys2Proof.Machine.execDcpZpx nn s
  | .dcpAby ll hh => Sys2Proof.Machine.execDcpAby ll hh s
  | .dcpAbx ll hh => Sys2Proof.Machine.execDcpAbx ll hh s
  | .iscIzx nn => Sys2Proof.Machine.execIscIzx nn s
  | .iscZpg nn => Sys2Proof.Machine.execIscZpg nn s
  | .iscAbs ll hh => Sys2Proof.Machine.execIscAbs ll hh s
  | .iscIzy nn => Sys2Proof.Machine.execIscIzy nn s
  | .iscZpx nn => Sys2Proof.Machine.execIscZpx nn s
  | .iscAby ll hh => Sys2Proof.Machine.execIscAby ll hh s
  | .iscAbx ll hh => Sys2Proof.Machine.execIscAbx ll hh s
  | .saxIzx nn => Sys2Proof.Machine.execSaxIzx nn s
  | .saxZpg nn => Sys2Proof.Machine.execSaxZpg nn s
  | .saxAbs ll hh => Sys2Proof.Machine.execSaxAbs ll hh s
  | .saxZpy nn => Sys2Proof.Machine.execSaxZpy nn s
  | .laxIzx nn => Sys2Proof.Machine.execLaxIzx nn s
  | .laxZpg nn => Sys2Proof.Machine.execLaxZpg nn s
  | .laxAbs ll hh => Sys2Proof.Machine.execLaxAbs ll hh s
  | .laxIzy nn => Sys2Proof.Machine.execLaxIzy nn s
  | .laxZpy nn => Sys2Proof.Machine.execLaxZpy nn s
  | .laxAby ll hh => Sys2Proof.Machine.execLaxAby ll hh s
  -- IllegalOther.lean
  | .ancImm op nn => Sys2Proof.Machine.execAncImm op nn s
  | .alrImm nn => Sys2Proof.Machine.execAlrImm nn s
  | .arrImm nn => Sys2Proof.Machine.execArrImm nn s
  | .aneImm nn => Sys2Proof.Machine.execAneImm nn s
  | .lxaImm nn => Sys2Proof.Machine.execLxaImm nn s
  | .sbxImm nn => Sys2Proof.Machine.execSbxImm nn s
  | .lasAby ll hh => Sys2Proof.Machine.execLasAby ll hh s
  | .shaIzy nn => Sys2Proof.Machine.execShaIzy nn s
  | .shaAby ll hh => Sys2Proof.Machine.execShaAby ll hh s
  | .shxAby ll hh => Sys2Proof.Machine.execShxAby ll hh s
  | .shyAbx ll hh => Sys2Proof.Machine.execShyAbx ll hh s
  | .tasAby ll hh => Sys2Proof.Machine.execTasAby ll hh s
  | .sbcImmEB nn => Sys2Proof.Machine.execSbcImmEB nn s
  | .nopZpg op nn => Sys2Proof.Machine.execNopZpg op nn s
  | .nopAbs ll hh => Sys2Proof.Machine.execNopAbs ll hh s
  | .nopZpx op nn => Sys2Proof.Machine.execNopZpx op nn s
  | .nopImp op => Sys2Proof.Machine.execNopImp op s
  | .nopAbx op ll hh => Sys2Proof.Machine.execNopAbx op ll hh s
  | .nopImm op nn => Sys2Proof.Machine.execNopImm op nn s
  | .stp op => Sys2Proof.Machine.execStp op s

end Sys2Proof.Machine
end

