-- ==== Sys2Proof/WellFormed.lean ====
section
/-! DEFINITION. Well-formedness.
An `Instr` is well formed by its type: every field is a byte and every byte value is legal there (R73 to
R75, R78), so there is nothing to check on it.
What can be ill formed is an encoding written as numbers, and `wellFormed` checks that. -/

namespace Sys2Proof

/-- The length in bytes of the instruction of each opcode, sixteen opcodes a row, $00 first: the column
"length" of opcode_table.json (R70, R71). -/
def lengthTable : List (List Nat) :=
  [ [1, 2, 1, 2, 2, 2, 2, 2, 1, 2, 1, 2, 3, 3, 3, 3],
    [2, 2, 1, 2, 2, 2, 2, 2, 1, 3, 1, 3, 3, 3, 3, 3],
    [3, 2, 1, 2, 2, 2, 2, 2, 1, 2, 1, 2, 3, 3, 3, 3],
    [2, 2, 1, 2, 2, 2, 2, 2, 1, 3, 1, 3, 3, 3, 3, 3],
    [1, 2, 1, 2, 2, 2, 2, 2, 1, 2, 1, 2, 3, 3, 3, 3],
    [2, 2, 1, 2, 2, 2, 2, 2, 1, 3, 1, 3, 3, 3, 3, 3],
    [1, 2, 1, 2, 2, 2, 2, 2, 1, 2, 1, 2, 3, 3, 3, 3],
    [2, 2, 1, 2, 2, 2, 2, 2, 1, 3, 1, 3, 3, 3, 3, 3],
    [2, 2, 2, 2, 2, 2, 2, 2, 1, 2, 1, 2, 3, 3, 3, 3],
    [2, 2, 1, 2, 2, 2, 2, 2, 1, 3, 1, 3, 3, 3, 3, 3],
    [2, 2, 2, 2, 2, 2, 2, 2, 1, 2, 1, 2, 3, 3, 3, 3],
    [2, 2, 1, 2, 2, 2, 2, 2, 1, 3, 1, 3, 3, 3, 3, 3],
    [2, 2, 2, 2, 2, 2, 2, 2, 1, 2, 1, 2, 3, 3, 3, 3],
    [2, 2, 1, 2, 2, 2, 2, 2, 1, 3, 1, 3, 3, 3, 3, 3],
    [2, 2, 2, 2, 2, 2, 2, 2, 1, 2, 1, 2, 3, 3, 3, 3],
    [2, 2, 1, 2, 2, 2, 2, 2, 1, 3, 1, 3, 3, 3, 3, 3] ]

/-- The length the table gives an opcode number, 0 for a number that is no opcode. -/
def tableLength (op : Nat) : Nat := (lengthTable.getD (op / 16) []).getD (op % 16) 0

/-- An encoding is not empty. -/
def hasOpcode (bs : List Nat) : Bool := !bs.isEmpty

/-- Every number of an encoding is a byte (R6). -/
def allBytes (bs : List Nat) : Bool := bs.all (· < 256)

/-- An encoding has the length its opcode fixes (R71: "The opcode byte alone determines the
length"). -/
def rightLength (bs : List Nat) : Bool := bs.length == tableLength (bs.headD 256)

/-- A list of numbers is the encoding of one instruction. -/
def wellFormed (bs : List Nat) : Bool := hasOpcode bs && allBytes bs && rightLength bs

end Sys2Proof
end

