-- ==== Sys2Proof/Decode.lean ====
section
/-! DEFINITION. Decoding and encoding.
The decoder is the opcode map of R76 written row by row: row = high nibble, column = low nibble.
It is total on opcode bytes (R78); a list of bytes that ends before the instruction does is rejected
by name. -/

namespace Sys2Proof

/-- Row 0x of the opcode map of R76; the last line is column $F. -/
def opcodeRow0 (column : Nat) (b1 b2 : Byte) : Instr :=
  match column with
  | 0x0 => .brk
  | 0x1 => .oraIzx b1
  | 0x2 => .stp .x02
  | 0x3 => .sloIzx b1
  | 0x4 => .nopZpg .x04 b1
  | 0x5 => .oraZpg b1
  | 0x6 => .aslZpg b1
  | 0x7 => .sloZpg b1
  | 0x8 => .php
  | 0x9 => .oraImm b1
  | 0xA => .aslAcc
  | 0xB => .ancImm .x0B b1
  | 0xC => .nopAbs b1 b2
  | 0xD => .oraAbs b1 b2
  | 0xE => .aslAbs b1 b2
  | _ => .sloAbs b1 b2

/-- Row 1x of the opcode map of R76; the last line is column $F. -/
def opcodeRow1 (column : Nat) (b1 b2 : Byte) : Instr :=
  match column with
  | 0x0 => .bpl b1
  | 0x1 => .oraIzy b1
  | 0x2 => .stp .x12
  | 0x3 => .sloIzy b1
  | 0x4 => .nopZpx .x14 b1
  | 0x5 => .oraZpx b1
  | 0x6 => .aslZpx b1
  | 0x7 => .sloZpx b1
  | 0x8 => .clc
  | 0x9 => .oraAby b1 b2
  | 0xA => .nopImp .x1A
  | 0xB => .sloAby b1 b2
  | 0xC => .nopAbx .x1C b1 b2
  | 0xD => .oraAbx b1 b2
  | 0xE => .aslAbx b1 b2
  | _ => .sloAbx b1 b2

/-- Row 2x of the opcode map of R76; the last line is column $F. -/
def opcodeRow2 (column : Nat) (b1 b2 : Byte) : Instr :=
  match column with
  | 0x0 => .jsr b1 b2
  | 0x1 => .andIzx b1
  | 0x2 => .stp .x22
  | 0x3 => .rlaIzx b1
  | 0x4 => .bitZpg b1
  | 0x5 => .andZpg b1
  | 0x6 => .rolZpg b1
  | 0x7 => .rlaZpg b1
  | 0x8 => .plp
  | 0x9 => .andImm b1
  | 0xA => .rolAcc
  | 0xB => .ancImm .x2B b1
  | 0xC => .bitAbs b1 b2
  | 0xD => .andAbs b1 b2
  | 0xE => .rolAbs b1 b2
  | _ => .rlaAbs b1 b2

/-- Row 3x of the opcode map of R76; the last line is column $F. -/
def opcodeRow3 (column : Nat) (b1 b2 : Byte) : Instr :=
  match column with
  | 0x0 => .bmi b1
  | 0x1 => .andIzy b1
  | 0x2 => .stp .x32
  | 0x3 => .rlaIzy b1
  | 0x4 => .nopZpx .x34 b1
  | 0x5 => .andZpx b1
  | 0x6 => .rolZpx b1
  | 0x7 => .rlaZpx b1
  | 0x8 => .sec
  | 0x9 => .andAby b1 b2
  | 0xA => .nopImp .x3A
  | 0xB => .rlaAby b1 b2
  | 0xC => .nopAbx .x3C b1 b2
  | 0xD => .andAbx b1 b2
  | 0xE => .rolAbx b1 b2
  | _ => .rlaAbx b1 b2

/-- Row 4x of the opcode map of R76; the last line is column $F. -/
def opcodeRow4 (column : Nat) (b1 b2 : Byte) : Instr :=
  match column with
  | 0x0 => .rti
  | 0x1 => .eorIzx b1
  | 0x2 => .stp .x42
  | 0x3 => .sreIzx b1
  | 0x4 => .nopZpg .x44 b1
  | 0x5 => .eorZpg b1
  | 0x6 => .lsrZpg b1
  | 0x7 => .sreZpg b1
  | 0x8 => .pha
  | 0x9 => .eorImm b1
  | 0xA => .lsrAcc
  | 0xB => .alrImm b1
  | 0xC => .jmpAbs b1 b2
  | 0xD => .eorAbs b1 b2
  | 0xE => .lsrAbs b1 b2
  | _ => .sreAbs b1 b2

/-- Row 5x of the opcode map of R76; the last line is column $F. -/
def opcodeRow5 (column : Nat) (b1 b2 : Byte) : Instr :=
  match column with
  | 0x0 => .bvc b1
  | 0x1 => .eorIzy b1
  | 0x2 => .stp .x52
  | 0x3 => .sreIzy b1
  | 0x4 => .nopZpx .x54 b1
  | 0x5 => .eorZpx b1
  | 0x6 => .lsrZpx b1
  | 0x7 => .sreZpx b1
  | 0x8 => .cli
  | 0x9 => .eorAby b1 b2
  | 0xA => .nopImp .x5A
  | 0xB => .sreAby b1 b2
  | 0xC => .nopAbx .x5C b1 b2
  | 0xD => .eorAbx b1 b2
  | 0xE => .lsrAbx b1 b2
  | _ => .sreAbx b1 b2

/-- Row 6x of the opcode map of R76; the last line is column $F. -/
def opcodeRow6 (column : Nat) (b1 b2 : Byte) : Instr :=
  match column with
  | 0x0 => .rts
  | 0x1 => .adcIzx b1
  | 0x2 => .stp .x62
  | 0x3 => .rraIzx b1
  | 0x4 => .nopZpg .x64 b1
  | 0x5 => .adcZpg b1
  | 0x6 => .rorZpg b1
  | 0x7 => .rraZpg b1
  | 0x8 => .pla
  | 0x9 => .adcImm b1
  | 0xA => .rorAcc
  | 0xB => .arrImm b1
  | 0xC => .jmpInd b1 b2
  | 0xD => .adcAbs b1 b2
  | 0xE => .rorAbs b1 b2
  | _ => .rraAbs b1 b2

/-- Row 7x of the opcode map of R76; the last line is column $F. -/
def opcodeRow7 (column : Nat) (b1 b2 : Byte) : Instr :=
  match column with
  | 0x0 => .bvs b1
  | 0x1 => .adcIzy b1
  | 0x2 => .stp .x72
  | 0x3 => .rraIzy b1
  | 0x4 => .nopZpx .x74 b1
  | 0x5 => .adcZpx b1
  | 0x6 => .rorZpx b1
  | 0x7 => .rraZpx b1
  | 0x8 => .sei
  | 0x9 => .adcAby b1 b2
  | 0xA => .nopImp .x7A
  | 0xB => .rraAby b1 b2
  | 0xC => .nopAbx .x7C b1 b2
  | 0xD => .adcAbx b1 b2
  | 0xE => .rorAbx b1 b2
  | _ => .rraAbx b1 b2

/-- Row 8x of the opcode map of R76; the last line is column $F. -/
def opcodeRow8 (column : Nat) (b1 b2 : Byte) : Instr :=
  match column with
  | 0x0 => .nopImm .x80 b1
  | 0x1 => .staIzx b1
  | 0x2 => .nopImm .x82 b1
  | 0x3 => .saxIzx b1
  | 0x4 => .styZpg b1
  | 0x5 => .staZpg b1
  | 0x6 => .stxZpg b1
  | 0x7 => .saxZpg b1
  | 0x8 => .dey
  | 0x9 => .nopImm .x89 b1
  | 0xA => .txa
  | 0xB => .aneImm b1
  | 0xC => .styAbs b1 b2
  | 0xD => .staAbs b1 b2
  | 0xE => .stxAbs b1 b2
  | _ => .saxAbs b1 b2

/-- Row 9x of the opcode map of R76; the last line is column $F. -/
def opcodeRow9 (column : Nat) (b1 b2 : Byte) : Instr :=
  match column with
  | 0x0 => .bcc b1
  | 0x1 => .staIzy b1
  | 0x2 => .stp .x92
  | 0x3 => .shaIzy b1
  | 0x4 => .styZpx b1
  | 0x5 => .staZpx b1
  | 0x6 => .stxZpy b1
  | 0x7 => .saxZpy b1
  | 0x8 => .tya
  | 0x9 => .staAby b1 b2
  | 0xA => .txs
  | 0xB => .tasAby b1 b2
  | 0xC => .shyAbx b1 b2
  | 0xD => .staAbx b1 b2
  | 0xE => .shxAby b1 b2
  | _ => .shaAby b1 b2

/-- Row Ax of the opcode map of R76; the last line is column $F. -/
def opcodeRowA (column : Nat) (b1 b2 : Byte) : Instr :=
  match column with
  | 0x0 => .ldyImm b1
  | 0x1 => .ldaIzx b1
  | 0x2 => .ldxImm b1
  | 0x3 => .laxIzx b1
  | 0x4 => .ldyZpg b1
  | 0x5 => .ldaZpg b1
  | 0x6 => .ldxZpg b1
  | 0x7 => .laxZpg b1
  | 0x8 => .tay
  | 0x9 => .ldaImm b1
  | 0xA => .tax
  | 0xB => .lxaImm b1
  | 0xC => .ldyAbs b1 b2
  | 0xD => .ldaAbs b1 b2
  | 0xE => .ldxAbs b1 b2
  | _ => .laxAbs b1 b2

/-- Row Bx of the opcode map of R76; the last line is column $F. -/
def opcodeRowB (column : Nat) (b1 b2 : Byte) : Instr :=
  match column with
  | 0x0 => .bcs b1
  | 0x1 => .ldaIzy b1
  | 0x2 => .stp .xB2
  | 0x3 => .laxIzy b1
  | 0x4 => .ldyZpx b1
  | 0x5 => .ldaZpx b1
  | 0x6 => .ldxZpy b1
  | 0x7 => .laxZpy b1
  | 0x8 => .clv
  | 0x9 => .ldaAby b1 b2
  | 0xA => .tsx
  | 0xB => .lasAby b1 b2
  | 0xC => .ldyAbx b1 b2
  | 0xD => .ldaAbx b1 b2
  | 0xE => .ldxAby b1 b2
  | _ => .laxAby b1 b2

/-- Row Cx of the opcode map of R76; the last line is column $F. -/
def opcodeRowC (column : Nat) (b1 b2 : Byte) : Instr :=
  match column with
  | 0x0 => .cpyImm b1
  | 0x1 => .cmpIzx b1
  | 0x2 => .nopImm .xC2 b1
  | 0x3 => .dcpIzx b1
  | 0x4 => .cpyZpg b1
  | 0x5 => .cmpZpg b1
  | 0x6 => .decZpg b1
  | 0x7 => .dcpZpg b1
  | 0x8 => .iny
  | 0x9 => .cmpImm b1
  | 0xA => .dex
  | 0xB => .sbxImm b1
  | 0xC => .cpyAbs b1 b2
  | 0xD => .cmpAbs b1 b2
  | 0xE => .decAbs b1 b2
  | _ => .dcpAbs b1 b2

/-- Row Dx of the opcode map of R76; the last line is column $F. -/
def opcodeRowD (column : Nat) (b1 b2 : Byte) : Instr :=
  match column with
  | 0x0 => .bne b1
  | 0x1 => .cmpIzy b1
  | 0x2 => .stp .xD2
  | 0x3 => .dcpIzy b1
  | 0x4 => .nopZpx .xD4 b1
  | 0x5 => .cmpZpx b1
  | 0x6 => .decZpx b1
  | 0x7 => .dcpZpx b1
  | 0x8 => .cld
  | 0x9 => .cmpAby b1 b2
  | 0xA => .nopImp .xDA
  | 0xB => .dcpAby b1 b2
  | 0xC => .nopAbx .xDC b1 b2
  | 0xD => .cmpAbx b1 b2
  | 0xE => .decAbx b1 b2
  | _ => .dcpAbx b1 b2

/-- Row Ex of the opcode map of R76; the last line is column $F. -/
def opcodeRowE (column : Nat) (b1 b2 : Byte) : Instr :=
  match column with
  | 0x0 => .cpxImm b1
  | 0x1 => .sbcIzx b1
  | 0x2 => .nopImm .xE2 b1
  | 0x3 => .iscIzx b1
  | 0x4 => .cpxZpg b1
  | 0x5 => .sbcZpg b1
  | 0x6 => .incZpg b1
  | 0x7 => .iscZpg b1
  | 0x8 => .inx
  | 0x9 => .sbcImm b1
  | 0xA => .nop
  | 0xB => .sbcImmEB b1
  | 0xC => .cpxAbs b1 b2
  | 0xD => .sbcAbs b1 b2
  | 0xE => .incAbs b1 b2
  | _ => .iscAbs b1 b2

/-- Row Fx of the opcode map of R76; the last line is column $F. -/
def opcodeRowF (column : Nat) (b1 b2 : Byte) : Instr :=
  match column with
  | 0x0 => .beq b1
  | 0x1 => .sbcIzy b1
  | 0x2 => .stp .xF2
  | 0x3 => .iscIzy b1
  | 0x4 => .nopZpx .xF4 b1
  | 0x5 => .sbcZpx b1
  | 0x6 => .incZpx b1
  | 0x7 => .iscZpx b1
  | 0x8 => .sed
  | 0x9 => .sbcAby b1 b2
  | 0xA => .nopImp .xFA
  | 0xB => .iscAby b1 b2
  | 0xC => .nopAbx .xFC b1 b2
  | 0xD => .sbcAbx b1 b2
  | 0xE => .incAbx b1 b2
  | _ => .iscAbx b1 b2

/-- The opcode map of R76: the instruction at a row (high nibble, the last line is row $F) and a column
(low nibble), with the operand bytes `b1` and `b2` that follow the opcode byte (an instruction takes as
many of them as its mode has, R70). -/
def opcodeMap (row column : Nat) (b1 b2 : Byte) : Instr :=
  match row with
  | 0x0 => opcodeRow0 column b1 b2
  | 0x1 => opcodeRow1 column b1 b2
  | 0x2 => opcodeRow2 column b1 b2
  | 0x3 => opcodeRow3 column b1 b2
  | 0x4 => opcodeRow4 column b1 b2
  | 0x5 => opcodeRow5 column b1 b2
  | 0x6 => opcodeRow6 column b1 b2
  | 0x7 => opcodeRow7 column b1 b2
  | 0x8 => opcodeRow8 column b1 b2
  | 0x9 => opcodeRow9 column b1 b2
  | 0xA => opcodeRowA column b1 b2
  | 0xB => opcodeRowB column b1 b2
  | 0xC => opcodeRowC column b1 b2
  | 0xD => opcodeRowD column b1 b2
  | 0xE => opcodeRowE column b1 b2
  | _ => opcodeRowF column b1 b2

/-- The instruction of opcode byte `op` followed by the bytes `b1` and `b2`. Every opcode byte has an
entry of its own in the map (R78: "A decoder of opcode bytes is total"). -/
def decodeBytes (op b1 b2 : Byte) : Instr := opcodeMap (op.toNat / 16) (op.toNat % 16) b1 b2

/-- The addressing mode of an instruction: the column "mode" of its row (R76). -/
def Instr.mode : Instr → Mode
  | .brk | .stp _ | .php | .clc | .nopImp _ | .plp | .sec | .rti | .pha | .cli | .rts | .pla |
    .sei | .dey | .txa | .tya | .txs | .tay | .tax | .clv | .tsx | .iny | .dex | .cld | .inx |
    .nop | .sed => .imp
  | .aslAcc | .rolAcc | .lsrAcc | .rorAcc => .acc
  | .oraImm _ | .ancImm _ _ | .andImm _ | .eorImm _ | .alrImm _ | .adcImm _ | .arrImm _ | .nopImm
    _ _ | .aneImm _ | .ldyImm _ | .ldxImm _ | .ldaImm _ | .lxaImm _ | .cpyImm _ | .cmpImm _ |
    .sbxImm _ | .cpxImm _ | .sbcImm _ | .sbcImmEB _ => .imm
  | .nopZpg _ _ | .oraZpg _ | .aslZpg _ | .sloZpg _ | .bitZpg _ | .andZpg _ | .rolZpg _ | .rlaZpg
    _ | .eorZpg _ | .lsrZpg _ | .sreZpg _ | .adcZpg _ | .rorZpg _ | .rraZpg _ | .styZpg _ |
    .staZpg _ | .stxZpg _ | .saxZpg _ | .ldyZpg _ | .ldaZpg _ | .ldxZpg _ | .laxZpg _ | .cpyZpg _
    | .cmpZpg _ | .decZpg _ | .dcpZpg _ | .cpxZpg _ | .sbcZpg _ | .incZpg _ | .iscZpg _ => .zpg
  | .nopZpx _ _ | .oraZpx _ | .aslZpx _ | .sloZpx _ | .andZpx _ | .rolZpx _ | .rlaZpx _ | .eorZpx
    _ | .lsrZpx _ | .sreZpx _ | .adcZpx _ | .rorZpx _ | .rraZpx _ | .styZpx _ | .staZpx _ |
    .ldyZpx _ | .ldaZpx _ | .cmpZpx _ | .decZpx _ | .dcpZpx _ | .sbcZpx _ | .incZpx _ | .iscZpx _
    => .zpx
  | .stxZpy _ | .saxZpy _ | .ldxZpy _ | .laxZpy _ => .zpy
  | .nopAbs _ _ | .oraAbs _ _ | .aslAbs _ _ | .sloAbs _ _ | .jsr _ _ | .bitAbs _ _ | .andAbs _ _ |
    .rolAbs _ _ | .rlaAbs _ _ | .jmpAbs _ _ | .eorAbs _ _ | .lsrAbs _ _ | .sreAbs _ _ | .adcAbs _
    _ | .rorAbs _ _ | .rraAbs _ _ | .styAbs _ _ | .staAbs _ _ | .stxAbs _ _ | .saxAbs _ _ |
    .ldyAbs _ _ | .ldaAbs _ _ | .ldxAbs _ _ | .laxAbs _ _ | .cpyAbs _ _ | .cmpAbs _ _ | .decAbs _
    _ | .dcpAbs _ _ | .cpxAbs _ _ | .sbcAbs _ _ | .incAbs _ _ | .iscAbs _ _ => .abs
  | .nopAbx _ _ _ | .oraAbx _ _ | .aslAbx _ _ | .sloAbx _ _ | .andAbx _ _ | .rolAbx _ _ | .rlaAbx
    _ _ | .eorAbx _ _ | .lsrAbx _ _ | .sreAbx _ _ | .adcAbx _ _ | .rorAbx _ _ | .rraAbx _ _ |
    .shyAbx _ _ | .staAbx _ _ | .ldyAbx _ _ | .ldaAbx _ _ | .cmpAbx _ _ | .decAbx _ _ | .dcpAbx _
    _ | .sbcAbx _ _ | .incAbx _ _ | .iscAbx _ _ => .abx
  | .oraAby _ _ | .sloAby _ _ | .andAby _ _ | .rlaAby _ _ | .eorAby _ _ | .sreAby _ _ | .adcAby _
    _ | .rraAby _ _ | .staAby _ _ | .tasAby _ _ | .shxAby _ _ | .shaAby _ _ | .ldaAby _ _ |
    .lasAby _ _ | .ldxAby _ _ | .laxAby _ _ | .cmpAby _ _ | .dcpAby _ _ | .sbcAby _ _ | .iscAby _
    _ => .aby
  | .jmpInd _ _ => .ind
  | .oraIzx _ | .sloIzx _ | .andIzx _ | .rlaIzx _ | .eorIzx _ | .sreIzx _ | .adcIzx _ | .rraIzx _
    | .staIzx _ | .saxIzx _ | .ldaIzx _ | .laxIzx _ | .cmpIzx _ | .dcpIzx _ | .sbcIzx _ | .iscIzx
    _ => .izx
  | .oraIzy _ | .sloIzy _ | .andIzy _ | .rlaIzy _ | .eorIzy _ | .sreIzy _ | .adcIzy _ | .rraIzy _
    | .staIzy _ | .shaIzy _ | .ldaIzy _ | .laxIzy _ | .cmpIzy _ | .dcpIzy _ | .sbcIzy _ | .iscIzy
    _ => .izy
  | .bpl _ | .bmi _ | .bvc _ | .bvs _ | .bcc _ | .bcs _ | .bne _ | .beq _ => .rel

/-- The opcode byte (R434). -/
def StpOpcode.byte : StpOpcode → Byte
  | .x02 => 0x02#8
  | .x12 => 0x12#8
  | .x22 => 0x22#8
  | .x32 => 0x32#8
  | .x42 => 0x42#8
  | .x52 => 0x52#8
  | .x62 => 0x62#8
  | .x72 => 0x72#8
  | .x92 => 0x92#8
  | .xB2 => 0xB2#8
  | .xD2 => 0xD2#8
  | .xF2 => 0xF2#8

/-- The opcode byte (R433). -/
def NopZpgOpcode.byte : NopZpgOpcode → Byte
  | .x04 => 0x04#8
  | .x44 => 0x44#8
  | .x64 => 0x64#8

/-- The opcode byte (R420). -/
def AncImmOpcode.byte : AncImmOpcode → Byte
  | .x0B => 0x0B#8
  | .x2B => 0x2B#8

/-- The opcode byte (R433). -/
def NopZpxOpcode.byte : NopZpxOpcode → Byte
  | .x14 => 0x14#8
  | .x34 => 0x34#8
  | .x54 => 0x54#8
  | .x74 => 0x74#8
  | .xD4 => 0xD4#8
  | .xF4 => 0xF4#8

/-- The opcode byte (R433). -/
def NopImpOpcode.byte : NopImpOpcode → Byte
  | .x1A => 0x1A#8
  | .x3A => 0x3A#8
  | .x5A => 0x5A#8
  | .x7A => 0x7A#8
  | .xDA => 0xDA#8
  | .xFA => 0xFA#8

/-- The opcode byte (R433). -/
def NopAbxOpcode.byte : NopAbxOpcode → Byte
  | .x1C => 0x1C#8
  | .x3C => 0x3C#8
  | .x5C => 0x5C#8
  | .x7C => 0x7C#8
  | .xDC => 0xDC#8
  | .xFC => 0xFC#8

/-- The opcode byte (R433). -/
def NopImmOpcode.byte : NopImmOpcode → Byte
  | .x80 => 0x80#8
  | .x82 => 0x82#8
  | .x89 => 0x89#8
  | .xC2 => 0xC2#8
  | .xE2 => 0xE2#8

/-- How many operand bytes follow the opcode byte in each mode (R70). -/
def Mode.operandBytes : Mode → Nat
  | .imp | .acc => 0
  | .imm | .zpg | .zpx | .zpy | .izx | .izy | .rel => 1
  | .abs | .abx | .aby | .ind => 2

/-- The bytes of an instruction: its opcode byte, then its operand bytes at increasing addresses, the
low byte of a 16-bit operand first (R70, R75). -/
def encode : Instr → List Byte
  | .brk => [0x00#8]
  | .oraIzx nn => [0x01#8, nn]
  | .stp op => [op.byte]
  | .sloIzx nn => [0x03#8, nn]
  | .nopZpg op nn => [op.byte, nn]
  | .oraZpg nn => [0x05#8, nn]
  | .aslZpg nn => [0x06#8, nn]
  | .sloZpg nn => [0x07#8, nn]
  | .php => [0x08#8]
  | .oraImm nn => [0x09#8, nn]
  | .aslAcc => [0x0A#8]
  | .ancImm op nn => [op.byte, nn]
  | .nopAbs ll hh => [0x0C#8, ll, hh]
  | .oraAbs ll hh => [0x0D#8, ll, hh]
  | .aslAbs ll hh => [0x0E#8, ll, hh]
  | .sloAbs ll hh => [0x0F#8, ll, hh]
  | .bpl dd => [0x10#8, dd]
  | .oraIzy nn => [0x11#8, nn]
  | .sloIzy nn => [0x13#8, nn]
  | .nopZpx op nn => [op.byte, nn]
  | .oraZpx nn => [0x15#8, nn]
  | .aslZpx nn => [0x16#8, nn]
  | .sloZpx nn => [0x17#8, nn]
  | .clc => [0x18#8]
  | .oraAby ll hh => [0x19#8, ll, hh]
  | .nopImp op => [op.byte]
  | .sloAby ll hh => [0x1B#8, ll, hh]
  | .nopAbx op ll hh => [op.byte, ll, hh]
  | .oraAbx ll hh => [0x1D#8, ll, hh]
  | .aslAbx ll hh => [0x1E#8, ll, hh]
  | .sloAbx ll hh => [0x1F#8, ll, hh]
  | .jsr ll hh => [0x20#8, ll, hh]
  | .andIzx nn => [0x21#8, nn]
  | .rlaIzx nn => [0x23#8, nn]
  | .bitZpg nn => [0x24#8, nn]
  | .andZpg nn => [0x25#8, nn]
  | .rolZpg nn => [0x26#8, nn]
  | .rlaZpg nn => [0x27#8, nn]
  | .plp => [0x28#8]
  | .andImm nn => [0x29#8, nn]
  | .rolAcc => [0x2A#8]
  | .bitAbs ll hh => [0x2C#8, ll, hh]
  | .andAbs ll hh => [0x2D#8, ll, hh]
  | .rolAbs ll hh => [0x2E#8, ll, hh]
  | .rlaAbs ll hh => [0x2F#8, ll, hh]
  | .bmi dd => [0x30#8, dd]
  | .andIzy nn => [0x31#8, nn]
  | .rlaIzy nn => [0x33#8, nn]
  | .andZpx nn => [0x35#8, nn]
  | .rolZpx nn => [0x36#8, nn]
  | .rlaZpx nn => [0x37#8, nn]
  | .sec => [0x38#8]
  | .andAby ll hh => [0x39#8, ll, hh]
  | .rlaAby ll hh => [0x3B#8, ll, hh]
  | .andAbx ll hh => [0x3D#8, ll, hh]
  | .rolAbx ll hh => [0x3E#8, ll, hh]
  | .rlaAbx ll hh => [0x3F#8, ll, hh]
  | .rti => [0x40#8]
  | .eorIzx nn => [0x41#8, nn]
  | .sreIzx nn => [0x43#8, nn]
  | .eorZpg nn => [0x45#8, nn]
  | .lsrZpg nn => [0x46#8, nn]
  | .sreZpg nn => [0x47#8, nn]
  | .pha => [0x48#8]
  | .eorImm nn => [0x49#8, nn]
  | .lsrAcc => [0x4A#8]
  | .alrImm nn => [0x4B#8, nn]
  | .jmpAbs ll hh => [0x4C#8, ll, hh]
  | .eorAbs ll hh => [0x4D#8, ll, hh]
  | .lsrAbs ll hh => [0x4E#8, ll, hh]
  | .sreAbs ll hh => [0x4F#8, ll, hh]
  | .bvc dd => [0x50#8, dd]
  | .eorIzy nn => [0x51#8, nn]
  | .sreIzy nn => [0x53#8, nn]
  | .eorZpx nn => [0x55#8, nn]
  | .lsrZpx nn => [0x56#8, nn]
  | .sreZpx nn => [0x57#8, nn]
  | .cli => [0x58#8]
  | .eorAby ll hh => [0x59#8, ll, hh]
  | .sreAby ll hh => [0x5B#8, ll, hh]
  | .eorAbx ll hh => [0x5D#8, ll, hh]
  | .lsrAbx ll hh => [0x5E#8, ll, hh]
  | .sreAbx ll hh => [0x5F#8, ll, hh]
  | .rts => [0x60#8]
  | .adcIzx nn => [0x61#8, nn]
  | .rraIzx nn => [0x63#8, nn]
  | .adcZpg nn => [0x65#8, nn]
  | .rorZpg nn => [0x66#8, nn]
  | .rraZpg nn => [0x67#8, nn]
  | .pla => [0x68#8]
  | .adcImm nn => [0x69#8, nn]
  | .rorAcc => [0x6A#8]
  | .arrImm nn => [0x6B#8, nn]
  | .jmpInd ll hh => [0x6C#8, ll, hh]
  | .adcAbs ll hh => [0x6D#8, ll, hh]
  | .rorAbs ll hh => [0x6E#8, ll, hh]
  | .rraAbs ll hh => [0x6F#8, ll, hh]
  | .bvs dd => [0x70#8, dd]
  | .adcIzy nn => [0x71#8, nn]
  | .rraIzy nn => [0x73#8, nn]
  | .adcZpx nn => [0x75#8, nn]
  | .rorZpx nn => [0x76#8, nn]
  | .rraZpx nn => [0x77#8, nn]
  | .sei => [0x78#8]
  | .adcAby ll hh => [0x79#8, ll, hh]
  | .rraAby ll hh => [0x7B#8, ll, hh]
  | .adcAbx ll hh => [0x7D#8, ll, hh]
  | .rorAbx ll hh => [0x7E#8, ll, hh]
  | .rraAbx ll hh => [0x7F#8, ll, hh]
  | .nopImm op nn => [op.byte, nn]
  | .staIzx nn => [0x81#8, nn]
  | .saxIzx nn => [0x83#8, nn]
  | .styZpg nn => [0x84#8, nn]
  | .staZpg nn => [0x85#8, nn]
  | .stxZpg nn => [0x86#8, nn]
  | .saxZpg nn => [0x87#8, nn]
  | .dey => [0x88#8]
  | .txa => [0x8A#8]
  | .aneImm nn => [0x8B#8, nn]
  | .styAbs ll hh => [0x8C#8, ll, hh]
  | .staAbs ll hh => [0x8D#8, ll, hh]
  | .stxAbs ll hh => [0x8E#8, ll, hh]
  | .saxAbs ll hh => [0x8F#8, ll, hh]
  | .bcc dd => [0x90#8, dd]
  | .staIzy nn => [0x91#8, nn]
  | .shaIzy nn => [0x93#8, nn]
  | .styZpx nn => [0x94#8, nn]
  | .staZpx nn => [0x95#8, nn]
  | .stxZpy nn => [0x96#8, nn]
  | .saxZpy nn => [0x97#8, nn]
  | .tya => [0x98#8]
  | .staAby ll hh => [0x99#8, ll, hh]
  | .txs => [0x9A#8]
  | .tasAby ll hh => [0x9B#8, ll, hh]
  | .shyAbx ll hh => [0x9C#8, ll, hh]
  | .staAbx ll hh => [0x9D#8, ll, hh]
  | .shxAby ll hh => [0x9E#8, ll, hh]
  | .shaAby ll hh => [0x9F#8, ll, hh]
  | .ldyImm nn => [0xA0#8, nn]
  | .ldaIzx nn => [0xA1#8, nn]
  | .ldxImm nn => [0xA2#8, nn]
  | .laxIzx nn => [0xA3#8, nn]
  | .ldyZpg nn => [0xA4#8, nn]
  | .ldaZpg nn => [0xA5#8, nn]
  | .ldxZpg nn => [0xA6#8, nn]
  | .laxZpg nn => [0xA7#8, nn]
  | .tay => [0xA8#8]
  | .ldaImm nn => [0xA9#8, nn]
  | .tax => [0xAA#8]
  | .lxaImm nn => [0xAB#8, nn]
  | .ldyAbs ll hh => [0xAC#8, ll, hh]
  | .ldaAbs ll hh => [0xAD#8, ll, hh]
  | .ldxAbs ll hh => [0xAE#8, ll, hh]
  | .laxAbs ll hh => [0xAF#8, ll, hh]
  | .bcs dd => [0xB0#8, dd]
  | .ldaIzy nn => [0xB1#8, nn]
  | .laxIzy nn => [0xB3#8, nn]
  | .ldyZpx nn => [0xB4#8, nn]
  | .ldaZpx nn => [0xB5#8, nn]
  | .ldxZpy nn => [0xB6#8, nn]
  | .laxZpy nn => [0xB7#8, nn]
  | .clv => [0xB8#8]
  | .ldaAby ll hh => [0xB9#8, ll, hh]
  | .tsx => [0xBA#8]
  | .lasAby ll hh => [0xBB#8, ll, hh]
  | .ldyAbx ll hh => [0xBC#8, ll, hh]
  | .ldaAbx ll hh => [0xBD#8, ll, hh]
  | .ldxAby ll hh => [0xBE#8, ll, hh]
  | .laxAby ll hh => [0xBF#8, ll, hh]
  | .cpyImm nn => [0xC0#8, nn]
  | .cmpIzx nn => [0xC1#8, nn]
  | .dcpIzx nn => [0xC3#8, nn]
  | .cpyZpg nn => [0xC4#8, nn]
  | .cmpZpg nn => [0xC5#8, nn]
  | .decZpg nn => [0xC6#8, nn]
  | .dcpZpg nn => [0xC7#8, nn]
  | .iny => [0xC8#8]
  | .cmpImm nn => [0xC9#8, nn]
  | .dex => [0xCA#8]
  | .sbxImm nn => [0xCB#8, nn]
  | .cpyAbs ll hh => [0xCC#8, ll, hh]
  | .cmpAbs ll hh => [0xCD#8, ll, hh]
  | .decAbs ll hh => [0xCE#8, ll, hh]
  | .dcpAbs ll hh => [0xCF#8, ll, hh]
  | .bne dd => [0xD0#8, dd]
  | .cmpIzy nn => [0xD1#8, nn]
  | .dcpIzy nn => [0xD3#8, nn]
  | .cmpZpx nn => [0xD5#8, nn]
  | .decZpx nn => [0xD6#8, nn]
  | .dcpZpx nn => [0xD7#8, nn]
  | .cld => [0xD8#8]
  | .cmpAby ll hh => [0xD9#8, ll, hh]
  | .dcpAby ll hh => [0xDB#8, ll, hh]
  | .cmpAbx ll hh => [0xDD#8, ll, hh]
  | .decAbx ll hh => [0xDE#8, ll, hh]
  | .dcpAbx ll hh => [0xDF#8, ll, hh]
  | .cpxImm nn => [0xE0#8, nn]
  | .sbcIzx nn => [0xE1#8, nn]
  | .iscIzx nn => [0xE3#8, nn]
  | .cpxZpg nn => [0xE4#8, nn]
  | .sbcZpg nn => [0xE5#8, nn]
  | .incZpg nn => [0xE6#8, nn]
  | .iscZpg nn => [0xE7#8, nn]
  | .inx => [0xE8#8]
  | .sbcImm nn => [0xE9#8, nn]
  | .nop => [0xEA#8]
  | .sbcImmEB nn => [0xEB#8, nn]
  | .cpxAbs ll hh => [0xEC#8, ll, hh]
  | .sbcAbs ll hh => [0xED#8, ll, hh]
  | .incAbs ll hh => [0xEE#8, ll, hh]
  | .iscAbs ll hh => [0xEF#8, ll, hh]
  | .beq dd => [0xF0#8, dd]
  | .sbcIzy nn => [0xF1#8, nn]
  | .iscIzy nn => [0xF3#8, nn]
  | .sbcZpx nn => [0xF5#8, nn]
  | .incZpx nn => [0xF6#8, nn]
  | .iscZpx nn => [0xF7#8, nn]
  | .sed => [0xF8#8]
  | .sbcAby ll hh => [0xF9#8, ll, hh]
  | .iscAby ll hh => [0xFB#8, ll, hh]
  | .sbcAbx ll hh => [0xFD#8, ll, hh]
  | .incAbx ll hh => [0xFE#8, ll, hh]
  | .iscAbx ll hh => [0xFF#8, ll, hh]

/-- Why a list of bytes is no instruction. -/
inductive DecodeError where
  /-- there is no opcode byte -/
  | noOpcode
  /-- the list ends before the operand bytes that the opcode calls for (R70) -/
  | missingOperand
deriving DecidableEq, Repr

/-- Decode the instruction at the head of a list of bytes: the instruction and the bytes after it.
An opcode byte is never rejected (R78). -/
def decode : List Byte → Except DecodeError (Instr × List Byte)
  | [] => .error .noOpcode
  | op :: rest =>
    let i := decodeBytes op (rest.getD 0 0) (rest.getD 1 0)
    if rest.length < i.mode.operandBytes then .error .missingOperand
    else .ok (i, rest.drop i.mode.operandBytes)

/-- Byte `k` of an instruction whose bits, numbered as the opcode table numbers them, are `w`: the
first byte is bits 7..0, the second bits 15..8. Bits from `nbits` up are 0. -/
def tableByte (nbits w k : Nat) : Byte := BitVec.ofNat 8 ((w % 2 ^ nbits) / 2 ^ (8 * k))

/-- What the decoder reads from an instruction whose bits are `w`, laid out as the hardware stores
them: three bytes, the longest instruction (R70). -/
def decodeTableWord (nbits w : Nat) : Option Instr :=
  match decode [tableByte nbits w 0, tableByte nbits w 1, tableByte nbits w 2] with
  | .ok (i, _) => some i
  | .error _ => none

end Sys2Proof
end

