-- ==== Sys2Proof/Machine/Fetch.lean ====
section
/-! DEFINITION. Fetching an instruction's bytes and decoding them (R81, R472), and placing an instruction
where the next step fetches. -/

namespace Sys2Proof.Machine

/-- The opcode fetch (R472) and the instruction it selects. The opcode byte is read and PC advances; the
operand bytes are looked up as the bus will answer them and are read when the instruction runs.
Log entry 7. -/
def fetchInstr (s : State) : Instr × State :=
  let op := fetch8 s
  let b1 := fetch8 op.2
  let b2 := fetch8 b1.2
  (decodeBytes op.1 b1.1 b2.1, op.2)

/-- Three bytes of memory at PC, the longest instruction (R70). -/
def storeAtPc (b0 b1 b2 : Byte) (s : State) : State :=
  { s with mem := Memory.write (Memory.write (Memory.write s.mem s.pc.toNat b0)
      (s.pc + 1).toNat b1) (s.pc + 2).toNat b2 }

/-- A state whose next step fetches an instruction from plain memory: not halted, no interrupt that would
be serviced first, no answer of the outside world waiting. -/
def readyToFetch (s : State) : State :=
  { s with halted := false, pendingNmi := false, pendingIrq := s.pendingIrq && getFlag .i s.p, busInput := [] }

/-- The instruction whose bits are `w` stored at PC, and the state made ready to fetch it.
Log entry 20. -/
def placeWord (s : State) (nbits w : Nat) : State :=
  readyToFetch (storeAtPc (tableByte nbits w 0) (tableByte nbits w 1) (tableByte nbits w 2) s)

end Sys2Proof.Machine
end

