-- ==== Sys2Proof/Machine/Step.lean ====
section
/-! DEFINITION. One step of the machine (R470). -/

namespace Sys2Proof.Machine

/-- `step()` (R470): nothing when halted, else one interrupt service, else one complete instruction. The
latches and I are read once, at the start (R503). The count it returns is `State.work` of the next
state (R475). -/
def step (s : State) : Host.Outcome State Fault Refusal :=
  match sample s with
  | .halted => .next (beginStep s)
  | .service kind => .next (service kind (beginStep s))
  | .instruction => exec (fetchInstr (beginStep s)).1 (fetchInstr (beginStep s)).2

/-- The state with one instruction placed where `step` fetches next, and ready to fetch it. Log entry
20. -/
def State.withFetchWord (s : State) (nbits w : Nat) : State := placeWord s nbits w

end Sys2Proof.Machine
end

