-- ==== Sys2Proof/Safety.lean ====
section
/-! DEFINITION. The terms the claims are stated in: what the bus answers to the reads to come, the effective
address and the accesses of each addressing mode written out from R132 and R142 on their own (not through
the resolver), what a meaning leaves alone, the machine's invariant, and the forms of each mnemonic. -/

namespace Sys2Proof.Machine

/-! ### What the bus answers -/

/-- What the bus answers to the `k`-th of the reads to come (the next one is number 0), if plain memory
holds `held` at its address when it is made: the outside world's answer where it gives one (R52). -/
def State.answerOr (s : State) (k : Nat) (held : Byte) : Byte :=
  match s.busInput[k]? with
  | some (some v) => v
  | _ => held

/-- What the bus answers to the `k`-th of the reads to come, if that read is at `addr` and no write before it
goes there. -/
def State.answerAt (s : State) (k : Nat) (addr : Word) : Byte := s.answerOr k (s.byteAt addr)

/-- The bus is plain memory: the outside world answers none of the reads to come. -/
def PlainBus (s : State) : Prop := s.busInput = []

/-! ### Effective addresses and accesses, from the tables -/

/-- A 16-bit value from its number. -/
def addrOf (k : Nat) : Word := BitVec.ofNat 16 k

/-- The effective address of a mode as a number (the table of R132). The pointer bytes of `izx` are the reads
number 2 and 3 of the mode, those of `izy` the reads number 1 and 2 (R141). -/
def eaNat (m : MemOperand) (s : State) : Nat :=
  match m with
  | .zpg nn => nn.toNat
  | .zpx nn => (nn.toNat + s.x.toNat) % 256
  | .zpy nn => (nn.toNat + s.y.toNat) % 256
  | .abs ll hh => 256 * hh.toNat + ll.toNat
  | .abx ll hh => (256 * hh.toNat + ll.toNat + s.x.toNat) % 65536
  | .aby ll hh => (256 * hh.toNat + ll.toNat + s.y.toNat) % 65536
  | .izx nn =>
    let lo := s.answerAt 2 (addrOf ((nn.toNat + s.x.toNat) % 256))
    let hi := s.answerAt 3 (addrOf ((nn.toNat + s.x.toNat + 1) % 256))
    256 * hi.toNat + lo.toNat
  | .izy nn =>
    let lo := s.answerAt 1 (addrOf nn.toNat)
    let hi := s.answerAt 2 (addrOf ((nn.toNat + 1) % 256))
    (256 * hi.toNat + lo.toNat + s.y.toNat) % 65536

/-- The effective address of a mode (R132). -/
def effAddr (m : MemOperand) (s : State) : Word := addrOf (eaNat m s)

/-- A read in the bus log. -/
def rd (addr : Word) (v : Byte) : BusEvent := ⟨addr, v, .read⟩

/-- A write in the bus log. -/
def wr (addr : Word) (v : Byte) : BusEvent := ⟨addr, v, .write⟩

/-- The `k`-th of the reads to come, at `addr`, with what the bus answers. -/
def rdAt (s : State) (k : Nat) (addr : Word) : BusEvent := rd addr (s.answerAt k addr)

/-- Whether the index sum carries out of the low byte (R134). -/
def crosses (ll i : Byte) : Bool := decide (ll.toNat + i.toNat ≥ 256)

/-- The un-fixed address: the sum's low byte under the base's high byte (R134). -/
def unfixed (hh ll i : Byte) : Word := addrOf (256 * hh.toNat + (ll.toNat + i.toNat) % 256)

/-- The dummy read of an indexed mode, number `k` of its reads: on a crossing for the read discipline (R135),
always for the others (R136). -/
def indexDummy (s : State) (k : Nat) (hh ll i : Byte) (d : Discipline) : List BusEvent :=
  if crosses ll i || d != .read then [rdAt s k (unfixed hh ll i)] else []

/-- The accesses a mode makes before the access at its effective address (R142): the operand bytes at PC,
the dummy reads, the pointer bytes. -/
def modeAccesses (m : MemOperand) (d : Discipline) (s : State) : List BusEvent :=
  match m with
  | .zpg nn => [rd s.pc nn]
  | .zpx nn => [rd s.pc nn, rdAt s 1 (addrOf nn.toNat)]
  | .zpy nn => [rd s.pc nn, rdAt s 1 (addrOf nn.toNat)]
  | .abs ll hh => [rd s.pc ll, rd (s.pc + 1) hh]
  | .abx ll hh => [rd s.pc ll, rd (s.pc + 1) hh] ++ indexDummy s 2 hh ll s.x d
  | .aby ll hh => [rd s.pc ll, rd (s.pc + 1) hh] ++ indexDummy s 2 hh ll s.y d
  | .izx nn =>
    [rd s.pc nn, rdAt s 1 (addrOf nn.toNat), rdAt s 2 (addrOf ((nn.toNat + s.x.toNat) % 256)),
      rdAt s 3 (addrOf ((nn.toNat + s.x.toNat + 1) % 256))]
  | .izy nn =>
    let lo := rdAt s 1 (addrOf nn.toNat)
    let hi := rdAt s 2 (addrOf ((nn.toNat + 1) % 256))
    [rd s.pc nn, lo, hi] ++ indexDummy s 3 hi.value lo.value s.y d

/-- The number of operand bytes of a mode (R70). -/
def memSize : MemOperand → Nat
  | .abs _ _ => 2
  | .abx _ _ => 2
  | .aby _ _ => 2
  | _ => 1

/-- The number of operand bytes of a read form (R70). -/
def operandSize : Operand → Nat
  | .imm _ => 1
  | .mem m => memSize m

/-- The byte at the effective address, as the bus answers it after the accesses of the mode. -/
def memByte (m : MemOperand) (d : Discipline) (s : State) : Byte :=
  s.answerAt (modeAccesses m d s).length (effAddr m s)

/-- The operand byte of a read form: the immediate byte (R73), or the byte at the effective address. -/
def operandByte (o : Operand) (s : State) : Byte :=
  match o with
  | .imm nn => nn
  | .mem m => memByte m .read s

/-- All accesses of a read form after the opcode fetch (patterns IMM and -R of R142). -/
def operandAccesses (o : Operand) (s : State) : List BusEvent :=
  match o with
  | .imm nn => [rd s.pc nn]
  | .mem m => modeAccesses m .read s ++ [rd (effAddr m s) (memByte m .read s)]

/-! ### Results and frames -/

/-- The meaning of `i` at `s` is a next state with the property `q`. -/
def RunsTo (i : Instr) (s : State) (q : State → Prop) : Prop := ∃ t, exec i s = .next t ∧ q t

/-- Every byte of memory reads as before. -/
def SameMemory (s t : State) : Prop := ∀ a : Word, t.byteAt a = s.byteAt a

/-- The byte at `addr` reads as `v` and every other byte as before. -/
def StoresOnly (addr : Word) (v : Byte) (s t : State) : Prop :=
  t.byteAt addr = v ∧ ∀ a : Word, a ≠ addr → t.byteAt a = s.byteAt a

/-- The halted flag and the two interrupt latches are as before. -/
def SameControl (s t : State) : Prop :=
  t.halted = s.halted ∧ t.pendingNmi = s.pendingNmi ∧ t.pendingIrq = s.pendingIrq

/-- Every flag outside the list is as before; with the empty list, P is as before (R24). -/
def FlagsKept (written : List Flag) (s t : State) : Prop :=
  ∀ f, f ∉ written → getFlag f t.p = getFlag f s.p

/-- N and Z describe the byte `v` (R100). -/
def NzOf (v : Byte) (t : State) : Prop :=
  getFlag .n t.p = decide (v.toNat ≥ 128) ∧ getFlag .z t.p = decide (v.toNat = 0)

/-- The accesses a meaning made: those events were appended to the bus log, and their reads used up the
outside world's answers. -/
def Accesses (events : List BusEvent) (s t : State) : Prop :=
  t.log = s.log ++ events ∧
    t.busInput = s.busInput.drop (events.filter (fun e => e.dir == .read)).length

/-- What every form of the read discipline does beside its registers and flags: PC moves past the operand
bytes, the operand is read by the accesses of its mode, and nothing else moves. -/
def ReadFrame (o : Operand) (s t : State) : Prop :=
  t.pc = s.pc + addrOf (operandSize o) ∧ Accesses (operandAccesses o s) s t ∧ SameMemory s t ∧ SameControl s t

/-- What every form of the write discipline does beside its flags and registers (R136, R140): PC moves past the
operand bytes, the mode's accesses are made, and the byte `v` is stored at the effective address and
nowhere else. -/
def WriteFrame (m : MemOperand) (v : Byte) (s t : State) : Prop :=
  t.pc = s.pc + addrOf (memSize m) ∧
    Accesses (modeAccesses m .write s ++ [wr (effAddr m s) v]) s t ∧
    StoresOnly (effAddr m s) v s t ∧ SameControl s t

/-- What every form of the read-modify-write discipline does beside its flags and registers: the byte is read,
written back unmodified, then written as `r` (R139), and nothing else is stored. -/
def RmwFrame (m : MemOperand) (r : Byte) (s t : State) : Prop :=
  let ea := effAddr m s
  let v := memByte m .rmw s
  t.pc = s.pc + addrOf (memSize m) ∧
    Accesses (modeAccesses m .rmw s ++ [rd ea v, wr ea v, wr ea r]) s t ∧
    StoresOnly ea r s t ∧ SameControl s t

/-- What an instruction of pattern IMP does beside its registers and flags (R137, R142): one dummy read at
PC, which does not move. -/
def ImpliedFrame (s t : State) : Prop :=
  t.pc = s.pc ∧ Accesses [rdAt s 0 s.pc] s t ∧ SameMemory s t

/-! ### Sums and differences (R103, R104) -/

/-- A, C, V, N and Z after A = `a` plus `v` plus the carry `c`. V by its formula, and by its meaning: the signed
sum lies outside -128..127. -/
def AddResult (a v : Byte) (c : Bool) (t : State) : Prop :=
  let sum := a.toNat + v.toNat + c.toNat
  let signed := a.toInt + v.toInt + (c.toNat : Int)
  t.a.toNat = sum % 256 ∧
    getFlag .c t.p = decide (sum > 255) ∧
    getFlag .v t.p = (((a ^^^ t.a) &&& (v ^^^ t.a) &&& 0x80#8) != 0) ∧
    getFlag .v t.p = decide (signed < -128 ∨ 127 < signed) ∧
    NzOf t.a t

/-- A, C and V after A = `a` minus `v` minus the borrow, which is the inverted carry `c`. -/
def SubResult (a v : Byte) (c : Bool) (t : State) : Prop :=
  let signed := a.toInt - v.toInt - (1 - (c.toNat : Int))
  (t.a.toNat : Int) = ((a.toNat : Int) - v.toNat - (1 - c.toNat)) % 256 ∧
    getFlag .c t.p = decide (a.toNat ≥ v.toNat + (1 - c.toNat)) ∧
    getFlag .v t.p = decide (signed < -128 ∨ 127 < signed)

/-- C, N and Z after comparing `reg` with `v` (R105). -/
def CompareResult (reg v : Byte) (t : State) : Prop :=
  getFlag .c t.p = decide (v.toNat ≤ reg.toNat) ∧ NzOf (reg - v) t

/-! ### The stack -/

/-- Where the addresses of a push lie: `$0100 | SP` (R23), as a number. -/
def stackSlot (sp : Byte) : Word := addrOf (256 + sp.toNat)

/-- The high byte of a 16-bit value. -/
def highOf (v : Word) : Byte := BitVec.ofNat 8 (v.toNat / 256)

/-- The low byte of a 16-bit value. -/
def lowOf (v : Word) : Byte := BitVec.ofNat 8 (v.toNat % 256)

/-- The 16-bit value of a high and a low byte. -/
def wordOf (hi lo : Byte) : Word := addrOf (256 * hi.toNat + lo.toNat)

/-- The bytes `vs` stand on the stack from SP downward, the first at the stack pointer of `s`, and every other
byte of memory reads as before. -/
def StackedOnly (vs : List Byte) (s t : State) : Prop :=
  (∀ k (h : k < vs.length), t.byteAt (stackSlot (s.sp - BitVec.ofNat 8 k)) = vs[k]) ∧
    ∀ a : Word, (∀ k, k < vs.length → a ≠ stackSlot (s.sp - BitVec.ofNat 8 k)) →
      t.byteAt a = s.byteAt a

/-- The writes of pushing `vs` at the stack pointer `sp`. -/
def pushEvents (sp : Byte) (vs : List Byte) : List BusEvent :=
  vs.mapIdx fun k v => wr (stackSlot (sp - BitVec.ofNat 8 k)) v

/-! ### Steps -/

/-- The three bytes the bus answers to the next three reads, at PC and the two addresses after it. -/
def bytesAtPc (s : State) : List Byte :=
  [s.answerAt 0 s.pc, s.answerAt 1 (s.pc + 1), s.answerAt 2 (s.pc + 2)]

/-- The next step runs an instruction: the core is not halted and no interrupt is serviced first (R470). -/
def RunsInstruction (s : State) : Prop :=
  s.halted = false ∧ s.pendingNmi = false ∧ (s.pendingIrq = true → getFlag .i s.p = true)

/-- The state after the opcode fetch of a step (R472): the opcode byte read at PC is the first access of the
step, and PC is past it. -/
def afterOpcode (s : State) : State :=
  { s with
    pc := s.pc + 1
    busInput := s.busInput.tail
    log := [rdAt s 0 s.pc] }

/-- The machine's invariant: memory is in its canonical form and P.U is 1 (R40). -/
def Invariant (s : State) : Prop := Memory.wf s.mem = true ∧ getFlag .u s.p = true

/-- What a service does, but for the latch (R505, R507): seven accesses, PC and P with B = 0 and U = 1 pushed, I
set, PC loaded from the vector, and nothing else changed. -/
def ServiceEffect (vector : Word) (s t : State) : Prop :=
  let pushed := [highOf s.pc, lowOf s.pc, (s.p &&& 0xEF#8) ||| 0x20#8]
  let lo := s.answerAt 2 vector
  let hi := s.answerAt 3 (vector + 1)
  t.log = [rdAt s 0 s.pc, rdAt s 1 s.pc] ++ pushEvents s.sp pushed ++ [rd vector lo, rd (vector + 1) hi] ∧
    t.busInput = s.busInput.drop 4 ∧
    t.pc = wordOf hi lo ∧ t.sp = s.sp - 3 ∧ StackedOnly pushed s t ∧
    getFlag .i t.p = true ∧ FlagsKept [.i] s t ∧
    t.a = s.a ∧ t.x = s.x ∧ t.y = s.y ∧ t.halted = s.halted ∧ t.pendingIrq = s.pendingIrq

/-- The state `h` of a handler has the stack as the entry `e` left it: SP, the three stacked bytes, and the
register's own B and U, which no instruction writes (R27). -/
def StackLeftAlone (e h : State) : Prop :=
  h.sp = e.sp ∧
    (∀ k, 1 ≤ k → k ≤ 3 →
      h.byteAt (stackSlot (e.sp + BitVec.ofNat 8 k)) = e.byteAt (stackSlot (e.sp + BitVec.ofNat 8 k))) ∧
    getFlag .b h.p = getFlag .b e.p ∧ getFlag .u h.p = getFlag .u e.p

/-! ### Branches (R300 to R308) -/

/-- The eight branches with the displacement `dd`: the flag each tests and the value it branches on. -/
def branchForms (dd : Byte) : List (Instr × Flag × Bool) :=
  [ (.bpl dd, .n, false), (.bmi dd, .n, true), (.bvc dd, .v, false), (.bvs dd, .v, true),
    (.bcc dd, .c, false), (.bcs dd, .c, true), (.bne dd, .z, false), (.beq dd, .z, true) ]

/-- The target of a branch: the address after the displacement plus the signed displacement, modulo 2^16. -/
def branchTarget (next : Word) (dd : Byte) : Word :=
  addrOf ((next.toNat + 65536 + dd.toNat - (if dd.toNat ≥ 128 then 256 else 0)) % 65536)

/-- The accesses of a branch after its opcode fetch: the displacement; when it is taken, a dummy read at the
address after it; when the target lies in another page, a second one at the target's low byte under the
old page. -/
def branchAccesses (f : Flag) (polarity : Bool) (dd : Byte) (s : State) : List BusEvent :=
  let next := s.pc + 1
  let target := branchTarget next dd
  if getFlag f s.p ≠ polarity then [rd s.pc dd]
  else if target.toNat / 256 = next.toNat / 256 then [rd s.pc dd, rdAt s 1 next]
  else [rd s.pc dd, rdAt s 1 next, rdAt s 2 (wordOf (highOf next) (lowOf target))]

/-- The count of a branch (R300, entry `b` of R560): 2 not taken, 3 taken, 4 taken to another page. -/
def branchCount (f : Flag) (polarity : Bool) (dd : Byte) (s : State) : Nat :=
  let next := s.pc + 1
  if getFlag f s.p ≠ polarity then 2
  else if (branchTarget next dd).toNat / 256 = next.toNat / 256 then 3
  else 4

/-! ### The counts of R560 -/

/-- An entry of the table of R560. -/
inductive Count where
  /-- the count -/
  | fixed (n : Nat)
  /-- the count, and one more on a page crossing (`p`) -/
  | crossing (n : Nat)
  /-- a branch (`b`): `branchCount` -/
  | branch
deriving DecidableEq, Repr

/-- The table of R560, high nibble down, low nibble across. -/
def countTable : List (List Count) :=
  let f := Count.fixed
  let p := Count.crossing
  let b := Count.branch
  [ [f 7, f 6, f 2, f 8, f 3, f 3, f 5, f 5, f 3, f 2, f 2, f 2, f 4, f 4, f 6, f 6],
    [b, p 5, f 2, f 8, f 4, f 4, f 6, f 6, f 2, p 4, f 2, f 7, p 4, p 4, f 7, f 7],
    [f 6, f 6, f 2, f 8, f 3, f 3, f 5, f 5, f 4, f 2, f 2, f 2, f 4, f 4, f 6, f 6],
    [b, p 5, f 2, f 8, f 4, f 4, f 6, f 6, f 2, p 4, f 2, f 7, p 4, p 4, f 7, f 7],
    [f 6, f 6, f 2, f 8, f 3, f 3, f 5, f 5, f 3, f 2, f 2, f 2, f 3, f 4, f 6, f 6],
    [b, p 5, f 2, f 8, f 4, f 4, f 6, f 6, f 2, p 4, f 2, f 7, p 4, p 4, f 7, f 7],
    [f 6, f 6, f 2, f 8, f 3, f 3, f 5, f 5, f 4, f 2, f 2, f 2, f 5, f 4, f 6, f 6],
    [b, p 5, f 2, f 8, f 4, f 4, f 6, f 6, f 2, p 4, f 2, f 7, p 4, p 4, f 7, f 7],
    [f 2, f 6, f 2, f 6, f 3, f 3, f 3, f 3, f 2, f 2, f 2, f 2, f 4, f 4, f 4, f 4],
    [b, f 6, f 2, f 6, f 4, f 4, f 4, f 4, f 2, f 5, f 2, f 5, f 5, f 5, f 5, f 5],
    [f 2, f 6, f 2, f 6, f 3, f 3, f 3, f 3, f 2, f 2, f 2, f 2, f 4, f 4, f 4, f 4],
    [b, p 5, f 2, p 5, f 4, f 4, f 4, f 4, f 2, p 4, f 2, p 4, p 4, p 4, p 4, p 4],
    [f 2, f 6, f 2, f 8, f 3, f 3, f 5, f 5, f 2, f 2, f 2, f 2, f 4, f 4, f 6, f 6],
    [b, p 5, f 2, f 8, f 4, f 4, f 6, f 6, f 2, p 4, f 2, f 7, p 4, p 4, f 7, f 7],
    [f 2, f 6, f 2, f 8, f 3, f 3, f 5, f 5, f 2, f 2, f 2, f 2, f 4, f 4, f 6, f 6],
    [b, p 5, f 2, f 8, f 4, f 4, f 6, f 6, f 2, p 4, f 2, f 7, p 4, p 4, f 7, f 7] ]

/-- The entry of the table of R560 for an opcode. -/
def countOf (op : Byte) : Count := (countTable.getD (op.toNat / 16) []).getD (op.toNat % 16) .branch

/-- Whether the indexed address of an instruction crosses a page (R134), from its mode and its bytes. The base
of `izy` is its pointer, whose low byte is the mode's read number 1. -/
def addressCrosses (i : Instr) (s : State) : Bool :=
  match i.mode, encode i with
  | .abx, [_, ll, _] => crosses ll s.x
  | .aby, [_, ll, _] => crosses ll s.y
  | .izy, [_, nn] => crosses (s.answerAt 1 (addrOf nn.toNat)) s.y
  | _, _ => false

/-! ### The forms of each mnemonic

Each list pairs the instructions of one mnemonic with their operands, over any operand bytes. -/

/-- The forms of LDA. -/
def ldaForms (nn ll hh : Byte) : List (Instr × Operand) :=
  [ (.ldaIzx nn, .mem (.izx nn)), (.ldaZpg nn, .mem (.zpg nn)), (.ldaImm nn, .imm nn),
    (.ldaAbs ll hh, .mem (.abs ll hh)), (.ldaIzy nn, .mem (.izy nn)),
    (.ldaZpx nn, .mem (.zpx nn)), (.ldaAby ll hh, .mem (.aby ll hh)),
    (.ldaAbx ll hh, .mem (.abx ll hh)) ]

/-- The forms of LDX. -/
def ldxForms (nn ll hh : Byte) : List (Instr × Operand) :=
  [ (.ldxImm nn, .imm nn), (.ldxZpg nn, .mem (.zpg nn)), (.ldxAbs ll hh, .mem (.abs ll hh)),
    (.ldxZpy nn, .mem (.zpy nn)), (.ldxAby ll hh, .mem (.aby ll hh)) ]

/-- The forms of LDY. -/
def ldyForms (nn ll hh : Byte) : List (Instr × Operand) :=
  [ (.ldyImm nn, .imm nn), (.ldyZpg nn, .mem (.zpg nn)), (.ldyAbs ll hh, .mem (.abs ll hh)),
    (.ldyZpx nn, .mem (.zpx nn)), (.ldyAbx ll hh, .mem (.abx ll hh)) ]

/-- The forms of ADC. -/
def adcForms (nn ll hh : Byte) : List (Instr × Operand) :=
  [ (.adcIzx nn, .mem (.izx nn)), (.adcZpg nn, .mem (.zpg nn)), (.adcImm nn, .imm nn),
    (.adcAbs ll hh, .mem (.abs ll hh)), (.adcIzy nn, .mem (.izy nn)),
    (.adcZpx nn, .mem (.zpx nn)), (.adcAby ll hh, .mem (.aby ll hh)),
    (.adcAbx ll hh, .mem (.abx ll hh)) ]

/-- The forms of AND. -/
def andForms (nn ll hh : Byte) : List (Instr × Operand) :=
  [ (.andIzx nn, .mem (.izx nn)), (.andZpg nn, .mem (.zpg nn)), (.andImm nn, .imm nn),
    (.andAbs ll hh, .mem (.abs ll hh)), (.andIzy nn, .mem (.izy nn)),
    (.andZpx nn, .mem (.zpx nn)), (.andAby ll hh, .mem (.aby ll hh)),
    (.andAbx ll hh, .mem (.abx ll hh)) ]

/-- The forms of ORA. -/
def oraForms (nn ll hh : Byte) : List (Instr × Operand) :=
  [ (.oraIzx nn, .mem (.izx nn)), (.oraZpg nn, .mem (.zpg nn)), (.oraImm nn, .imm nn),
    (.oraAbs ll hh, .mem (.abs ll hh)), (.oraIzy nn, .mem (.izy nn)),
    (.oraZpx nn, .mem (.zpx nn)), (.oraAby ll hh, .mem (.aby ll hh)),
    (.oraAbx ll hh, .mem (.abx ll hh)) ]

/-- The forms of EOR. -/
def eorForms (nn ll hh : Byte) : List (Instr × Operand) :=
  [ (.eorIzx nn, .mem (.izx nn)), (.eorZpg nn, .mem (.zpg nn)), (.eorImm nn, .imm nn),
    (.eorAbs ll hh, .mem (.abs ll hh)), (.eorIzy nn, .mem (.izy nn)),
    (.eorZpx nn, .mem (.zpx nn)), (.eorAby ll hh, .mem (.aby ll hh)),
    (.eorAbx ll hh, .mem (.abx ll hh)) ]

/-- The forms of BIT. -/
def bitForms (nn ll hh : Byte) : List (Instr × Operand) :=
  [ (.bitZpg nn, .mem (.zpg nn)), (.bitAbs ll hh, .mem (.abs ll hh)) ]

/-- The forms of CMP. -/
def cmpForms (nn ll hh : Byte) : List (Instr × Operand) :=
  [ (.cmpIzx nn, .mem (.izx nn)), (.cmpZpg nn, .mem (.zpg nn)), (.cmpImm nn, .imm nn),
    (.cmpAbs ll hh, .mem (.abs ll hh)), (.cmpIzy nn, .mem (.izy nn)),
    (.cmpZpx nn, .mem (.zpx nn)), (.cmpAby ll hh, .mem (.aby ll hh)),
    (.cmpAbx ll hh, .mem (.abx ll hh)) ]

/-- The forms of CPX. -/
def cpxForms (nn ll hh : Byte) : List (Instr × Operand) :=
  [ (.cpxImm nn, .imm nn), (.cpxZpg nn, .mem (.zpg nn)), (.cpxAbs ll hh, .mem (.abs ll hh)) ]

/-- The forms of CPY. -/
def cpyForms (nn ll hh : Byte) : List (Instr × Operand) :=
  [ (.cpyImm nn, .imm nn), (.cpyZpg nn, .mem (.zpg nn)), (.cpyAbs ll hh, .mem (.abs ll hh)) ]

/-- The forms of LAX. -/
def laxForms (nn ll hh : Byte) : List (Instr × Operand) :=
  [ (.laxIzx nn, .mem (.izx nn)), (.laxZpg nn, .mem (.zpg nn)),
    (.laxAbs ll hh, .mem (.abs ll hh)), (.laxIzy nn, .mem (.izy nn)),
    (.laxZpy nn, .mem (.zpy nn)), (.laxAby ll hh, .mem (.aby ll hh)) ]

/-- The forms of SBC, the duplicate `$EB` included (R432). -/
def sbcForms (nn ll hh : Byte) : List (Instr × Operand) :=
  [ (.sbcIzx nn, .mem (.izx nn)), (.sbcZpg nn, .mem (.zpg nn)), (.sbcImm nn, .imm nn),
    (.sbcImmEB nn, .imm nn), (.sbcAbs ll hh, .mem (.abs ll hh)),
    (.sbcIzy nn, .mem (.izy nn)), (.sbcZpx nn, .mem (.zpx nn)),
    (.sbcAby ll hh, .mem (.aby ll hh)), (.sbcAbx ll hh, .mem (.abx ll hh)) ]

/-- The NOPs that read an operand, at any of their opcodes (R433). -/
def nopForms (o1 : NopImmOpcode) (o2 : NopZpgOpcode) (o3 : NopZpxOpcode)
    (o4 : NopAbxOpcode) (nn ll hh : Byte) : List (Instr × Operand) :=
  [ (.nopZpg o2 nn, .mem (.zpg nn)), (.nopAbs ll hh, .mem (.abs ll hh)),
    (.nopZpx o3 nn, .mem (.zpx nn)), (.nopAbx o4 ll hh, .mem (.abx ll hh)),
    (.nopImm o1 nn, .imm nn) ]

/-- The forms of STA. -/
def staForms (nn ll hh : Byte) : List (Instr × MemOperand) :=
  [ (.staIzx nn, .izx nn), (.staZpg nn, .zpg nn), (.staAbs ll hh, .abs ll hh),
    (.staIzy nn, .izy nn), (.staZpx nn, .zpx nn), (.staAby ll hh, .aby ll hh),
    (.staAbx ll hh, .abx ll hh) ]

/-- The forms of STX. -/
def stxForms (nn ll hh : Byte) : List (Instr × MemOperand) :=
  [ (.stxZpg nn, .zpg nn), (.stxAbs ll hh, .abs ll hh), (.stxZpy nn, .zpy nn) ]

/-- The forms of STY. -/
def styForms (nn ll hh : Byte) : List (Instr × MemOperand) :=
  [ (.styZpg nn, .zpg nn), (.styAbs ll hh, .abs ll hh), (.styZpx nn, .zpx nn) ]

/-- The forms of SAX. -/
def saxForms (nn ll hh : Byte) : List (Instr × MemOperand) :=
  [ (.saxIzx nn, .izx nn), (.saxZpg nn, .zpg nn), (.saxAbs ll hh, .abs ll hh),
    (.saxZpy nn, .zpy nn) ]

/-- The memory forms of ASL. -/
def aslForms (nn ll hh : Byte) : List (Instr × MemOperand) :=
  [ (.aslZpg nn, .zpg nn), (.aslAbs ll hh, .abs ll hh), (.aslZpx nn, .zpx nn),
    (.aslAbx ll hh, .abx ll hh) ]

/-- The memory forms of LSR. -/
def lsrForms (nn ll hh : Byte) : List (Instr × MemOperand) :=
  [ (.lsrZpg nn, .zpg nn), (.lsrAbs ll hh, .abs ll hh), (.lsrZpx nn, .zpx nn),
    (.lsrAbx ll hh, .abx ll hh) ]

/-- The memory forms of ROL. -/
def rolForms (nn ll hh : Byte) : List (Instr × MemOperand) :=
  [ (.rolZpg nn, .zpg nn), (.rolAbs ll hh, .abs ll hh), (.rolZpx nn, .zpx nn),
    (.rolAbx ll hh, .abx ll hh) ]

/-- The memory forms of ROR. -/
def rorForms (nn ll hh : Byte) : List (Instr × MemOperand) :=
  [ (.rorZpg nn, .zpg nn), (.rorAbs ll hh, .abs ll hh), (.rorZpx nn, .zpx nn),
    (.rorAbx ll hh, .abx ll hh) ]

/-- The memory forms of INC. -/
def incForms (nn ll hh : Byte) : List (Instr × MemOperand) :=
  [ (.incZpg nn, .zpg nn), (.incAbs ll hh, .abs ll hh), (.incZpx nn, .zpx nn),
    (.incAbx ll hh, .abx ll hh) ]

/-- The memory forms of DEC. -/
def decForms (nn ll hh : Byte) : List (Instr × MemOperand) :=
  [ (.decZpg nn, .zpg nn), (.decAbs ll hh, .abs ll hh), (.decZpx nn, .zpx nn),
    (.decAbx ll hh, .abx ll hh) ]

/-- The memory forms of SLO. -/
def sloForms (nn ll hh : Byte) : List (Instr × MemOperand) :=
  [ (.sloIzx nn, .izx nn), (.sloZpg nn, .zpg nn), (.sloAbs ll hh, .abs ll hh),
    (.sloIzy nn, .izy nn), (.sloZpx nn, .zpx nn), (.sloAby ll hh, .aby ll hh),
    (.sloAbx ll hh, .abx ll hh) ]

/-- The memory forms of RLA. -/
def rlaForms (nn ll hh : Byte) : List (Instr × MemOperand) :=
  [ (.rlaIzx nn, .izx nn), (.rlaZpg nn, .zpg nn), (.rlaAbs ll hh, .abs ll hh),
    (.rlaIzy nn, .izy nn), (.rlaZpx nn, .zpx nn), (.rlaAby ll hh, .aby ll hh),
    (.rlaAbx ll hh, .abx ll hh) ]

/-- The memory forms of SRE. -/
def sreForms (nn ll hh : Byte) : List (Instr × MemOperand) :=
  [ (.sreIzx nn, .izx nn), (.sreZpg nn, .zpg nn), (.sreAbs ll hh, .abs ll hh),
    (.sreIzy nn, .izy nn), (.sreZpx nn, .zpx nn), (.sreAby ll hh, .aby ll hh),
    (.sreAbx ll hh, .abx ll hh) ]

/-- The memory forms of RRA. -/
def rraForms (nn ll hh : Byte) : List (Instr × MemOperand) :=
  [ (.rraIzx nn, .izx nn), (.rraZpg nn, .zpg nn), (.rraAbs ll hh, .abs ll hh),
    (.rraIzy nn, .izy nn), (.rraZpx nn, .zpx nn), (.rraAby ll hh, .aby ll hh),
    (.rraAbx ll hh, .abx ll hh) ]

/-- The memory forms of DCP. -/
def dcpForms (nn ll hh : Byte) : List (Instr × MemOperand) :=
  [ (.dcpIzx nn, .izx nn), (.dcpZpg nn, .zpg nn), (.dcpAbs ll hh, .abs ll hh),
    (.dcpIzy nn, .izy nn), (.dcpZpx nn, .zpx nn), (.dcpAby ll hh, .aby ll hh),
    (.dcpAbx ll hh, .abx ll hh) ]

/-- The memory forms of ISC. -/
def iscForms (nn ll hh : Byte) : List (Instr × MemOperand) :=
  [ (.iscIzx nn, .izx nn), (.iscZpg nn, .zpg nn), (.iscAbs ll hh, .abs ll hh),
    (.iscIzy nn, .izy nn), (.iscZpx nn, .zpx nn), (.iscAby ll hh, .aby ll hh),
    (.iscAbx ll hh, .abx ll hh) ]

/-- Every form of the read-modify-write discipline (R138). -/
def rmwForms (nn ll hh : Byte) : List (Instr × MemOperand) :=
  aslForms nn ll hh ++ lsrForms nn ll hh ++ rolForms nn ll hh ++ rorForms nn ll hh ++
  incForms nn ll hh ++ decForms nn ll hh ++ sloForms nn ll hh ++ rlaForms nn ll hh ++
  sreForms nn ll hh ++ rraForms nn ll hh ++ dcpForms nn ll hh ++ iscForms nn ll hh

end Sys2Proof.Machine
end

