-- ==== Sys2Proof/Certificates/Slice0/Obligations.lean ====
section
/-! DEFINITION. The statements for the provers. Each is about every state, unless it says otherwise; the terms
they use are those of Safety.lean. -/

open Sys2Proof Sys2Proof.Machine

/-- One word of each family, written out from the opcode map of R76 and the operand layout of R70 and
R75, decodes to the instruction it stands for. Rests on 30_encoding.md sections 1 to 3. -/
def Obligations.DecodingReadsTheOpcodeMap : Prop :=
  decode [0xA9#8, 0x05#8] = .ok (.ldaImm 0x05#8, []) ∧
  decode [0x9D#8, 0xFF#8, 0x12#8] = .ok (.staAbx 0xFF#8 0x12#8, []) ∧
  decode [0xF1#8, 0x10#8] = .ok (.sbcIzy 0x10#8, []) ∧
  decode [0x2A#8, 0x77#8] = .ok (.rolAcc, [0x77#8]) ∧
  decode [0x6C#8, 0xFF#8, 0x02#8] = .ok (.jmpInd 0xFF#8 0x02#8, []) ∧
  decode [0xD0#8, 0xFB#8] = .ok (.bne 0xFB#8, []) ∧
  decode [0x28#8] = .ok (.plp, []) ∧
  decode [0x97#8, 0xFF#8] = .ok (.saxZpy 0xFF#8, []) ∧
  decode [0x9E#8, 0xFF#8, 0x03#8] = .ok (.shxAby 0xFF#8 0x03#8, []) ∧
  decode [0xF2#8] = .ok (.stp .xF2, [])

/-- For every instruction, with every operand byte, and whatever bytes follow, decoding its encoding
gives the instruction and the bytes that follow. Rests on 30_encoding.md sections 1, 2, 3 and 5. -/
def Obligations.DecodingAnEncodedInstructionGivesItBack : Prop :=
  ∀ (i : Instr) (rest : List Byte), decode (encode i ++ rest) = .ok (i, rest)

/-- Whatever bytes decode, the encoding of the instruction followed by the bytes left over is the
bytes that were given: no byte sequence is read as an instruction with another encoding. Rests on
30_encoding.md sections 1, 3 and 4. -/
def Obligations.EncodingADecodedInstructionGivesItsBytesBack : Prop :=
  ∀ (bytes rest : List Byte) (i : Instr), decode bytes = .ok (i, rest) → bytes = encode i ++ rest

/-- A list of numbers passes the well-formedness check (an opcode, every number a byte, the length
that the opcode table gives the opcode) exactly when it is the encoding of an instruction. Rests
on 30_encoding.md sections 1 and 4; opcode_table.json. -/
def Obligations.WellFormedByteListsAreTheEncodings : Prop :=
  ∀ numbers : List Nat,
    wellFormed numbers = true ↔ ∃ i : Instr, numbers = (encode i).map BitVec.toNat

/-- Any three bytes decode, whatever the first is. Two different opcode bytes never decode to the same
value of Instr: that is the model's own choice, in which rows of the opcode map that share a
constructor keep a field that names their opcode (log entry 17). Rests on 30_encoding.md sections
4 and 5. -/
def Obligations.EveryOpcodeByteDecodes : Prop :=
  (∀ (op b1 b2 : Byte) (rest : List Byte), ∃ i left, decode (op :: b1 :: b2 :: rest) = .ok (i, left)) ∧
    ∀ op op' b1 b2 b1' b2' : Byte, decodeBytes op b1 b2 = decodeBytes op' b1' b2' → op = op'

/-- When the core is not halted and no interrupt is serviced first, and the bytes the bus answers at
PC decode to an instruction, the step is the meaning of that instruction at the state after the
opcode fetch: PC past the opcode byte, one answer of the outside world used up, the opcode read
the only access in the log. That operand bytes are known before they are read is the model's
arrangement (log entry 7). Rests on 49_engine.md section 1; 30_encoding.md section 5. -/
def Obligations.StepRunsTheDecodedInstruction : Prop :=
  ∀ (s : State) (i : Instr) (rest : List Byte), RunsInstruction s →
    decode (bytesAtPc s) = .ok (i, rest) → step s = exec i (afterOpcode s)

/-- With plain memory behind the bus, when the encoding of an instruction stands at PC and the
addresses after it, wrapping at $FFFF, and the step runs an instruction, the step is the meaning
of that instruction at the state after the opcode fetch. Rests on 49_engine.md section 1;
30_encoding.md section 1. -/
def Obligations.StepRunsTheInstructionStandingInMemory : Prop :=
  ∀ (s : State) (i : Instr), RunsInstruction s → PlainBus s →
    (∀ k (h : k < (encode i).length), s.byteAt (s.pc + addrOf k) = (encode i)[k]) →
      step s = exec i (afterOpcode s)

/-- The meaning of every instruction at every state is a next state: no instruction traps, faults or
is refused. Rests on 00_scope.md section 5; 60_exceptions.md section 1. -/
def Obligations.EveryInstructionCompletes : Prop :=
  ∀ (i : Instr) (s : State), ∃ t, exec i s = .next t

/-- Every step from every state answers a next state: the core has no fallible operation. Rests on
00_scope.md section 5; 49_engine.md section 1. -/
def Obligations.EveryStepCompletes : Prop :=
  ∀ s : State, ∃ t, step s = .next t

/-- When halted is set, a step gives the same state with an empty bus log and the count 0, whatever
the latches hold. Neither latch setter clears halted; reset() does. Rules: R471. -/
def Obligations.HaltedStepDoesNothing : Prop :=
  ∀ (s : State) (level : Bool), s.halted = true →
    step s = .next { s with log := [] } ∧ State.work { s with log := [] } = 0 ∧
      s.triggerNmi.halted = true ∧ (s.triggerIrq level).halted = true ∧ s.hostReset.halted = false

/-- When the core is not halted and an NMI is pending, the step services it, whatever I and the IRQ
level are: two dummy reads at PC, PC high, PC low and P with B = 0 and U = 1 pushed, I set, PC
from $FFFA and $FFFB, seven accesses, the NMI latch cleared, the IRQ level and everything else as
before. The two dummy reads and the order of a push are the spec's own decisions D18 and D13 (log
entries 16 and 23), and that D stays its general knowledge (log entry 23). Rests on
60_exceptions.md sections 2 and 3; 20_memory.md section 4. -/
def Obligations.NmiIsServicedFirst : Prop :=
  ∀ s : State, s.halted = false → s.pendingNmi = true →
    ∃ t, step s = .next t ∧ ServiceEffect 0xFFFA#16 s t ∧ t.pendingNmi = false ∧ t.work = 7

/-- When the core is not halted, no NMI is pending, the IRQ level is asserted and I is clear, the step
services the IRQ through $FFFE and $FFFF with the same seven accesses, and the level stays
asserted (the spec's decision D5, log entry 10). The dummy reads and the order of a push are the
spec's decisions D18 and D13 (log entries 16 and 23), and that D stays its general knowledge (log
entry 23). Rests on 60_exceptions.md sections 2 and 3; 90_conflicts.md C1; 20_memory.md section 4. -/
def Obligations.IrqIsServicedWhenNotMasked : Prop :=
  ∀ s : State, s.halted = false → s.pendingNmi = false → s.pendingIrq = true →
    getFlag .i s.p = false →
      ∃ t, step s = .next t ∧ ServiceEffect 0xFFFE#16 s t ∧ t.pendingIrq = true ∧
        t.pendingNmi = false ∧ t.work = 7

/-- A step never changes the IRQ level. It leaves the NMI latch as it was when the core is halted, and
clear otherwise. No instruction writes either latch. That an IRQ service leaves the IRQ level as
it was is the spec's decision D5 on its conflict C1 (log entry 10). Rests on 10_state.md section
5; 60_exceptions.md section 3; 90_conflicts.md C1; 92_eei_decisions.md D5. -/
def Obligations.OnlyServiceTouchesTheLatches : Prop :=
  (∀ s t : State, step s = .next t →
    t.pendingIrq = s.pendingIrq ∧ t.pendingNmi = (s.halted && s.pendingNmi)) ∧
  ∀ (i : Instr) (s t : State), exec i s = .next t →
    t.pendingIrq = s.pendingIrq ∧ t.pendingNmi = s.pendingNmi

/-- From a core that is not halted, a step leaves it halted exactly when the step runs an instruction
and the opcode byte is one of the twelve STP opcodes of R79. Rests on 30_encoding.md section 4;
48_illegal_other.md section 5; 10_state.md section 5. -/
def Obligations.OnlyStpHalts : Prop :=
  ∀ s t : State, s.halted = false → step s = .next t →
    (t.halted = true ↔ RunsInstruction s ∧
      s.answerAt 0 s.pc ∈
        [0x02#8, 0x12#8, 0x22#8, 0x32#8, 0x42#8, 0x52#8, 0x62#8, 0x72#8, 0x92#8, 0xB2#8, 0xD2#8, 0xF2#8])

/-- B and U of the register P are the same after every step, and after reset(), as before: no
instruction and no interrupt service writes them. Rests on 10_state.md section 3; 40_status_alu.md
section 6. -/
def Obligations.NothingWritesBAndU : Prop :=
  (∀ s t : State, step s = .next t →
    getFlag .b t.p = getFlag .b s.p ∧ getFlag .u t.p = getFlag .u s.p) ∧
  ∀ s : State,
    getFlag .b s.hostReset.p = getFlag .b s.p ∧ getFlag .u s.hostReset.p = getFlag .u s.p

/-- From every state in which memory has its canonical form (addresses rising and inside the 65,536
bytes, no entry that reads as an unlisted byte) and P.U is 1, every step, reset(), trigger_nmi()
and trigger_irq(level) give such a state. The canonical form is the model's own; P.U = 1 is the
invariant of R40, which the spec derives. Rests on 10_state.md section 6; 49_engine.md section 1. -/
def Obligations.EveryTransitionKeepsTheInvariant : Prop :=
  (∀ s t : State, Invariant s → step s = .next t → Invariant t) ∧
  ∀ (s : State) (level : Bool), Invariant s → Invariant s.hostReset ∧ Invariant s.triggerNmi ∧ Invariant (s.triggerIrq level)

/-- Right after reset memory has its canonical form and P.U is 1 (the spec fixes U = 1 at power-on by
its decision D3, log entry 2). Rests on 10_state.md sections 6 and 7. -/
def Obligations.ResetSatisfiesTheInvariant : Prop :=
  Invariant State.reset

/-- After reset(), from any state, halted or not: SP is 3 less, wrapping, I is set, PC is the
little-endian word the bus answers at $FFFC and $FFFD, read low byte first, and halted and both
latches are clear. That these two reads are all its accesses and that memory stays are the spec's
decisions D4 and D26 (log entry 19); that the bus log holds nothing else is the model's
arrangement, which empties it when reset() starts (log entry 6). Rests on 70_reset_and_hazards.md
section 1; 92_eei_decisions.md D4 and D26. -/
def Obligations.ResetLoadsTheVectorAndMasksIrq : Prop :=
  ∀ s : State,
    let t := s.hostReset
    let lo := s.answerAt 0 0xFFFC#16
    let hi := s.answerAt 1 0xFFFD#16
    t.sp.toNat = (s.sp.toNat + 253) % 256 ∧ getFlag .i t.p = true ∧ t.pc = wordOf hi lo ∧
      t.log = [rd 0xFFFC#16 lo, rd 0xFFFD#16 hi] ∧
      t.halted = false ∧ t.pendingNmi = false ∧ t.pendingIrq = false ∧ t.mem = s.mem

/-- reset() leaves A, X, Y, every flag but I and every byte of memory as they were, and uses up two
answers of the outside world. That it writes nothing else is the spec's decision D26, and that it
makes no third access its decision D4 (log entry 19). Rests on 70_reset_and_hazards.md section 1. -/
def Obligations.ResetLeavesEverythingElse : Prop :=
  ∀ s : State,
    let t := s.hostReset
    t.a = s.a ∧ t.x = s.x ∧ t.y = s.y ∧ FlagsKept [.i] s t ∧ SameMemory s t ∧
      t.busInput = s.busInput.drop 2 ∧ t.log.length = 2

/-- The state right after reset is the model's power-on state after one reset(): SP = $FD, I, B and U
set, not halted, no latch set. The power-on values of A, X, Y, SP and of C, Z, D, V, N are the
model's choice (log entry 1), B = U = 1 the spec's decision D3 (log entry 2), and PC = $0000
follows from the model's choice of what unlisted memory reads as (log entry 4). Rests on
10_state.md section 7; 70_reset_and_hazards.md section 1. -/
def Obligations.ResetStateIsPowerOnAfterReset : Prop :=
  State.reset = State.powerOn.hostReset ∧ State.reset.sp = 0xFD#8 ∧ State.reset.p = 0x34#8 ∧
    State.reset.pc = 0x0000#16 ∧ State.reset.halted = false ∧ State.reset.pendingNmi = false ∧
    State.reset.pendingIrq = false

/-- set_nz writes N from bit 7 and Z from the value and no other flag. push_repr forces U to 1 and B
to the caller's choice and takes the rest from P. pull_repr takes every flag from the pulled byte
but B and U, which keep the register's values. Stated bit by bit and as the spec's byte formulas.
Rules: R100, R101, R102. -/
def Obligations.StatusHelpersWriteTheirBits : Prop :=
  (∀ (v p : Byte) (f : Flag), getFlag f (setNz v p) =
    match f with
    | .n => decide (v &&& 0x80#8 ≠ 0)
    | .z => decide (v = 0)
    | _ => getFlag f p) ∧
  (∀ (b : Bool) (p : Byte) (f : Flag), getFlag f (pushRepr b p) =
    match f with
    | .u => true
    | .b => b
    | _ => getFlag f p) ∧
  (∀ p : Byte, pushRepr true p = p ||| 0x30#8 ∧ pushRepr false p = (p &&& 0xEF#8) ||| 0x20#8) ∧
  (∀ (v p : Byte) (f : Flag), getFlag f (pullRepr v p) =
    match f with
    | .u => getFlag .u p
    | .b => getFlag .b p
    | _ => getFlag f v) ∧
  ∀ v p : Byte, pullRepr v p = (v &&& 0b11001111#8) ||| (p &&& 0b00110000#8)

/-- Whatever SP holds, a push writes its byte at $0100 + SP, makes no other access, changes no other
byte and leaves SP one less modulo 256; a pull reads at $0100 plus SP + 1 modulo 256, makes no
other access, changes no byte and leaves SP one more modulo 256. So a push at SP = $00 writes
$0100 and leaves SP = $FF, a pull at SP = $FF reads $0100 and leaves SP = $00, and pushing any 256
bytes returns SP to its value, from any state. That a push writes and then steps, and a pull steps
and then reads, is the spec's decision D13 (log entry 23). Rests on 20_memory.md section 4;
10_state.md section 2; 92_eei_decisions.md D13. -/
def Obligations.StackPointerWrapsInPageOne : Prop :=
  (∀ (s : State) (v : Byte),
    let t := push v s
    t.sp.toNat = (s.sp.toNat + 255) % 256 ∧ Accesses [wr (stackSlot s.sp) v] s t ∧
      StoresOnly (stackSlot s.sp) v s t) ∧
  (∀ s : State,
    let v := (pull s).1
    let t := (pull s).2
    let slot := addrOf (256 + (s.sp.toNat + 1) % 256)
    v = s.answerAt 0 slot ∧ t.sp.toNat = (s.sp.toNat + 1) % 256 ∧ Accesses [rd slot v] s t ∧
      SameMemory s t) ∧
  (∀ (s : State) (v : Byte), s.sp = 0x00#8 →
    (push v s).sp = 0xFF#8 ∧ (push v s).log = s.log ++ [wr 0x0100#16 v] ∧
      (push v s).byteAt 0x0100#16 = v) ∧
  (∀ s : State, s.sp = 0xFF#8 →
    (pull s).2.sp = 0x00#8 ∧ (pull s).1 = s.answerAt 0 0x0100#16 ∧
      (pull s).2.log = s.log ++ [rd 0x0100#16 (pull s).1]) ∧
  ∀ (s : State) (vs : List Byte), vs.length = 256 → (vs.foldl (fun t v => push v t) s).sp = s.sp

/-- With plain memory behind the bus, a read returns the byte last written to its address, and a write
to one address leaves what every other address reads as alone; on any bus a read returns the
outside world's answer where it gives one. Rests on 20_memory.md sections 1 and 6. -/
def Obligations.AReadReturnsTheLastWrite : Prop :=
  (∀ (s : State) (a : Word) (v : Byte), PlainBus s → (busRead a (busWrite a v s)).1 = v) ∧
  (∀ (s : State) (a b : Word) (v : Byte), b ≠ a →
    (busRead b (busWrite a v s)).1 = (busRead b s).1) ∧
  ∀ (s : State) (a : Word) (v : Byte) (rest : List (Option Byte)),
    s.busInput = some v :: rest → (busRead a s).1 = v ∧ (busRead a s).2.busInput = rest

/-- The canonical form is canonical: two memories in it that give the same byte at each of the 65,536
addresses are equal. The form is the model's own (log entry 4). Rests on 20_memory.md section 1. -/
def Obligations.CanonicalMemoriesThatReadAlikeAreEqual : Prop :=
  ∀ m m' : Memory, Memory.wf m = true → Memory.wf m' = true →
    (∀ a : Word, Memory.read m a.toNat = Memory.read m' a.toNat) → m = m'

/-- For every base, index and discipline: the resolver reports a crossing exactly when the low byte of
the index sum carries, which is exactly when the high bytes of base and effective address differ;
the un-fixed address is the sum's low byte under the base's high byte, which is the effective
address minus $100 on a crossing and the effective address itself otherwise. The read discipline
makes a dummy read there exactly on a crossing, the write and read-modify-write disciplines
always. abx and aby have their operand as the base and X and Y as the index, izy its pointer and
Y, and after the resolver's accesses comes the operand read, the write or the read-modify-write's
read at the effective address. The stores of R427 make the dummy read too and then their one
write, whose address on a crossing is their own. Rules: R134, R135, R136. -/
def Obligations.PageCrossingIsTheCarryOutOfTheLowByte : Prop :=
  (∀ (hh ll i : Byte) (d : Discipline) (s : State),
    let r := (resolveIndexed hh ll i d s).1
    let t := (resolveIndexed hh ll i d s).2
    (r.cross = true ↔ ll.toNat + i.toNat > 0xFF) ∧
    (r.cross = true ↔ hh ≠ hiByte r.ea) ∧
    (r.cross = true → unfixed hh ll i = r.ea - 0x0100#16) ∧
    (r.cross = false → unfixed hh ll i = r.ea) ∧
    (d = .read → t = if r.cross then dummyRead (unfixed hh ll i) s else s) ∧
    (d ≠ .read → t = dummyRead (unfixed hh ll i) s)) ∧
  (∀ (nn ll hh : Byte) (s : State), ∃ t u lo hi, ∀ d : Discipline,
    resolve (.abx ll hh) d s = resolveIndexed hh ll s.x d t ∧
      resolve (.aby ll hh) d s = resolveIndexed hh ll s.y d t ∧
      t.log = s.log ++ [rd s.pc ll, rd (s.pc + 1) hh] ∧
      resolve (.izy nn) d s = resolveIndexed hi lo s.y d u ∧
      u.log = s.log ++ [rd s.pc nn, rd (addrOf nn.toNat) lo, rd (addrOf ((nn.toNat + 1) % 256)) hi]) ∧
  ∀ (m : MemOperand) (s : State),
    let ea := effAddr m s
    (readOperand (.mem m) s).2.log = (resolve m .read s).2.log ++ [rd ea (memByte m .read s)] ∧
    (∀ body, ∃ v, (executeWrite m body s).log = (resolve m .write s).2.log ++ [wr ea v]) ∧
    (∀ body, (∀ v t, (body v t).2.log = t.log) → ∃ r,
      (executeRmw m body s).log = (resolve m .rmw s).2.log ++
        [rd ea (memByte m .rmw s), wr ea (memByte m .rmw s), wr ea r]) ∧
    ∀ reg, ∃ a v, (executeHighStore m reg s).log = (resolve m .write s).2.log ++ [wr a v]

/-- For every form of LDA, LDX, LDY and LAX: the meaning is a next state in which the register (A and
X for LAX) holds the operand byte, N and Z describe it, and nothing else changes but PC, the bus
log and the answers used up. The accesses are those of the mode; the zero-page base dummy read is
the spec's general knowledge (log entry 16), as are the bodies of LDX and LDY (log entry 23); the
flags of LAX are those the spec derives from LDA and LDX (log entry 23). Rests on
42_load_store_transfer.md section 1; 47_illegal_combined.md section 2; 41_addressing.md section 5. -/
def Obligations.LoadsLoadTheOperandByte : Prop :=
  ∀ (nn ll hh : Byte) (s : State),
    (∀ f ∈ ldaForms nn ll hh, RunsTo f.1 s fun t =>
      t.a = operandByte f.2 s ∧ NzOf (operandByte f.2 s) t ∧ FlagsKept [.n, .z] s t ∧
        t.x = s.x ∧ t.y = s.y ∧ t.sp = s.sp ∧ ReadFrame f.2 s t) ∧
    (∀ f ∈ ldxForms nn ll hh, RunsTo f.1 s fun t =>
      t.x = operandByte f.2 s ∧ NzOf (operandByte f.2 s) t ∧ FlagsKept [.n, .z] s t ∧
        t.a = s.a ∧ t.y = s.y ∧ t.sp = s.sp ∧ ReadFrame f.2 s t) ∧
    (∀ f ∈ ldyForms nn ll hh, RunsTo f.1 s fun t =>
      t.y = operandByte f.2 s ∧ NzOf (operandByte f.2 s) t ∧ FlagsKept [.n, .z] s t ∧
        t.a = s.a ∧ t.x = s.x ∧ t.sp = s.sp ∧ ReadFrame f.2 s t) ∧
    ∀ f ∈ laxForms nn ll hh, RunsTo f.1 s fun t =>
      t.a = operandByte f.2 s ∧ t.x = operandByte f.2 s ∧ NzOf (operandByte f.2 s) t ∧
        FlagsKept [.n, .z] s t ∧ t.y = s.y ∧ t.sp = s.sp ∧ ReadFrame f.2 s t

/-- For every form of STA, STX, STY and SAX: the meaning is a next state in which the byte at the
effective address is the register (A and X for SAX), every other byte reads as before, P and every
register are as before, PC is past the operand bytes, and the accesses are those of the mode, the
unconditional dummy read of the indexed modes included. The base dummy read of zpx, zpy and izx is
the spec's general knowledge (log entry 16), as are the bodies of STA, STX and STY (log entry 23).
Rests on 42_load_store_transfer.md section 2; 47_illegal_combined.md section 2; 41_addressing.md
sections 2 and 5. -/
def Obligations.StoresStoreTheRegister : Prop :=
  ∀ (nn ll hh : Byte) (s : State),
    let kept := fun t : State =>
      t.a = s.a ∧ t.x = s.x ∧ t.y = s.y ∧ t.sp = s.sp ∧ t.p = s.p
    (∀ f ∈ staForms nn ll hh, RunsTo f.1 s fun t => WriteFrame f.2 s.a s t ∧ kept t) ∧
    (∀ f ∈ stxForms nn ll hh, RunsTo f.1 s fun t => WriteFrame f.2 s.x s t ∧ kept t) ∧
    (∀ f ∈ styForms nn ll hh, RunsTo f.1 s fun t => WriteFrame f.2 s.y s t ∧ kept t) ∧
    ∀ f ∈ saxForms nn ll hh, RunsTo f.1 s fun t => WriteFrame f.2 (s.a &&& s.x) s t ∧ kept t

/-- Each transfer copies its source register to its destination, sets N and Z from the value (TXS sets
no flag), makes the one dummy read of pattern IMP, and changes nothing else. Their existence and
effects are the spec's general knowledge (log entry 23), and so is the dummy read at PC (log entry
16). Rests on 42_load_store_transfer.md section 3. -/
def Obligations.TransfersMoveARegister : Prop :=
  ∀ s : State,
    let base := fun t : State => t.mem = s.mem ∧ ImpliedFrame s t ∧ SameControl s t
    let flags := fun (v : Byte) (t : State) => NzOf v t ∧ FlagsKept [.n, .z] s t
    (RunsTo .tax s fun t =>
      t.x = s.a ∧ flags s.a t ∧ t.a = s.a ∧ t.y = s.y ∧ t.sp = s.sp ∧ base t) ∧
    (RunsTo .tay s fun t =>
      t.y = s.a ∧ flags s.a t ∧ t.a = s.a ∧ t.x = s.x ∧ t.sp = s.sp ∧ base t) ∧
    (RunsTo .txa s fun t =>
      t.a = s.x ∧ flags s.x t ∧ t.x = s.x ∧ t.y = s.y ∧ t.sp = s.sp ∧ base t) ∧
    (RunsTo .tya s fun t =>
      t.a = s.y ∧ flags s.y t ∧ t.x = s.x ∧ t.y = s.y ∧ t.sp = s.sp ∧ base t) ∧
    (RunsTo .tsx s fun t =>
      t.x = s.sp ∧ flags s.sp t ∧ t.a = s.a ∧ t.y = s.y ∧ t.sp = s.sp ∧ base t) ∧
    RunsTo .txs s fun t =>
      t.sp = s.x ∧ t.p = s.p ∧ t.a = s.a ∧ t.x = s.x ∧ t.y = s.y ∧ base t

/-- For every form of ADC: A is the low 8 bits of A + val + C, C is whether the sum exceeds $FF, V is
by the spec's formula and is set exactly when the signed sum lies outside -128..127, N and Z
describe A; D is not read and not written, and nothing else changes but PC, the bus log and the
answers used up. The accesses are those of the mode; the base dummy read of zpx and izx is the
spec's general knowledge (log entry 16). Rests on 40_status_alu.md section 2; 43_arith_logic.md
section 1; 41_addressing.md sections 2 and 5. -/
def Obligations.AdcAddsWithCarry : Prop :=
  ∀ (nn ll hh : Byte) (s : State), ∀ f ∈ adcForms nn ll hh, RunsTo f.1 s fun t =>
    AddResult s.a (operandByte f.2 s) (getFlag .c s.p) t ∧ FlagsKept [.c, .v, .n, .z] s t ∧
      t.x = s.x ∧ t.y = s.y ∧ t.sp = s.sp ∧ ReadFrame f.2 s t

/-- For every form of SBC, `$EB` included: the result and flags are those of ADC with val xor $FF; A
is A - val - (1 - C) modulo 256, C is set exactly when there is no borrow, V exactly when the
signed difference lies outside -128..127; nothing else changes but PC, the bus log and the answers
used up. The accesses are those of the mode; the base dummy read of zpx and izx is the spec's
general knowledge (log entry 16). Rests on 40_status_alu.md section 2; 43_arith_logic.md section
1; 41_addressing.md sections 2 and 5. -/
def Obligations.SbcSubtractsWithBorrow : Prop :=
  ∀ (nn ll hh : Byte) (s : State), ∀ f ∈ sbcForms nn ll hh, RunsTo f.1 s fun t =>
    AddResult s.a (operandByte f.2 s ^^^ 0xFF#8) (getFlag .c s.p) t ∧
      SubResult s.a (operandByte f.2 s) (getFlag .c s.p) t ∧ FlagsKept [.c, .v, .n, .z] s t ∧
      t.x = s.x ∧ t.y = s.y ∧ t.sp = s.sp ∧ ReadFrame f.2 s t

/-- Running any form of ADC or SBC after setting D, or after clearing it, gives the same A and the
same C, V, N and Z, and D itself stays as it was set. Rules: R114. -/
def Obligations.DecimalFlagDoesNotChangeAdcAndSbc : Prop :=
  ∀ (nn ll hh : Byte) (s : State) (d : Bool),
    ∀ f ∈ adcForms nn ll hh ++ sbcForms nn ll hh,
      ∃ t u, exec f.1 s = .next t ∧ exec f.1 { s with p := setFlag .d d s.p } = .next u ∧
        u.a = t.a ∧ getFlag .d u.p = d ∧ ∀ g : Flag, g ≠ .d → getFlag g u.p = getFlag g t.p

/-- For every form of AND, ORA and EOR: each bit of A is the and, or, exclusive or of A's and the
operand's bit, N and Z describe A, C and V stay, and nothing else changes but PC, the bus log and
the answers used up. The flag effect is the spec's general knowledge (log entry 23), and so is the
base dummy read of zpx and izx (log entry 16). Rests on 40_status_alu.md section 4;
43_arith_logic.md section 2. -/
def Obligations.LogicWorksBitByBit : Prop :=
  ∀ (nn ll hh : Byte) (s : State),
    let rest := fun (o : Operand) (t : State) =>
      NzOf t.a t ∧ FlagsKept [.n, .z] s t ∧ t.x = s.x ∧ t.y = s.y ∧ t.sp = s.sp ∧ ReadFrame o s t
    (∀ f ∈ andForms nn ll hh, RunsTo f.1 s fun t => rest f.2 t ∧
      ∀ k, t.a.getLsbD k = (s.a.getLsbD k && (operandByte f.2 s).getLsbD k)) ∧
    (∀ f ∈ oraForms nn ll hh, RunsTo f.1 s fun t => rest f.2 t ∧
      ∀ k, t.a.getLsbD k = (s.a.getLsbD k || (operandByte f.2 s).getLsbD k)) ∧
    ∀ f ∈ eorForms nn ll hh, RunsTo f.1 s fun t => rest f.2 t ∧
      ∀ k, t.a.getLsbD k = (s.a.getLsbD k ^^ (operandByte f.2 s).getLsbD k)

/-- For both forms of BIT: Z is whether A and the operand have no bit in common, N and V are bits 7
and 6 of the operand, and nothing else changes but PC, the bus log and the answers used up. The
body is the spec's general knowledge (log entry 23). Rests on 40_status_alu.md section 4;
43_arith_logic.md section 2. -/
def Obligations.BitTestsTheOperand : Prop :=
  ∀ (nn ll hh : Byte) (s : State), ∀ f ∈ bitForms nn ll hh, RunsTo f.1 s fun t =>
    getFlag .z t.p = decide (s.a &&& operandByte f.2 s = 0#8) ∧
      getFlag .n t.p = decide ((operandByte f.2 s).toNat ≥ 128) ∧
      getFlag .v t.p = decide ((operandByte f.2 s).toNat % 128 ≥ 64) ∧
      FlagsKept [.n, .v, .z] s t ∧
      t.a = s.a ∧ t.x = s.x ∧ t.y = s.y ∧ t.sp = s.sp ∧ ReadFrame f.2 s t

/-- For every form of CMP, CPX, CPY: C is whether the operand is at most the register, N and Z
describe the 8-bit difference, no register, not V and nothing else changes but PC, the bus log and
the answers used up. DCP does the same with A and the decremented byte, which it stores after the
unmodified byte (R384, R139). The base dummy read of zpx and izx is the spec's general knowledge
(log entry 16); the flags of DCP are those the spec derives from its halves (log entry 23). Rests
on 40_status_alu.md section 2; 43_arith_logic.md section 3; 47_illegal_combined.md section 1;
41_addressing.md sections 3 and 5. -/
def Obligations.ComparesSetCarryWhenNotBelow : Prop :=
  ∀ (nn ll hh : Byte) (s : State),
    let kept := fun t : State => FlagsKept [.c, .n, .z] s t ∧
      t.a = s.a ∧ t.x = s.x ∧ t.y = s.y ∧ t.sp = s.sp
    (∀ f ∈ cmpForms nn ll hh, RunsTo f.1 s fun t =>
      CompareResult s.a (operandByte f.2 s) t ∧ kept t ∧ ReadFrame f.2 s t) ∧
    (∀ f ∈ cpxForms nn ll hh, RunsTo f.1 s fun t =>
      CompareResult s.x (operandByte f.2 s) t ∧ kept t ∧ ReadFrame f.2 s t) ∧
    (∀ f ∈ cpyForms nn ll hh, RunsTo f.1 s fun t =>
      CompareResult s.y (operandByte f.2 s) t ∧ kept t ∧ ReadFrame f.2 s t) ∧
    ∀ f ∈ dcpForms nn ll hh, RunsTo f.1 s fun t =>
      ∃ r : Byte, r.toNat = ((memByte f.2 .rmw s).toNat + 255) % 256 ∧
        CompareResult s.a r t ∧ kept t ∧ RmwFrame f.2 r s t

/-- For every form of INC and DEC: the byte at the effective address is one more or one less modulo
256, written after the unmodified byte, N and Z describe it, C and V stay, and nothing else
changes. The bodies are the spec's general knowledge (log entry 23), and so is the base dummy read
of zpx (log entry 16). Rests on 40_status_alu.md section 4; 43_arith_logic.md section 4. -/
def Obligations.IncAndDecStepTheByte : Prop :=
  ∀ (nn ll hh : Byte) (s : State),
    let rest := fun (m : MemOperand) (r : Byte) (t : State) => NzOf r t ∧ FlagsKept [.n, .z] s t ∧
      t.a = s.a ∧ t.x = s.x ∧ t.y = s.y ∧ t.sp = s.sp ∧ RmwFrame m r s t
    (∀ f ∈ incForms nn ll hh, RunsTo f.1 s fun t =>
      ∃ r : Byte, r.toNat = ((memByte f.2 .rmw s).toNat + 1) % 256 ∧ rest f.2 r t) ∧
    ∀ f ∈ decForms nn ll hh, RunsTo f.1 s fun t =>
      ∃ r : Byte, r.toNat = ((memByte f.2 .rmw s).toNat + 255) % 256 ∧ rest f.2 r t

/-- INX, INY, DEX and DEY: the register is one more or one less modulo 256, N and Z describe it, one
dummy read at PC, and nothing else changes. The bodies are the spec's general knowledge (log entry
23), and so is the dummy read (log entry 16). Rests on 40_status_alu.md section 4;
43_arith_logic.md section 4. -/
def Obligations.IndexRegistersStepByOne : Prop :=
  ∀ s : State,
    let rest := fun (v : Byte) (t : State) => NzOf v t ∧ FlagsKept [.n, .z] s t ∧
      t.a = s.a ∧ t.sp = s.sp ∧ ImpliedFrame s t ∧ SameControl s t
    (RunsTo .inx s fun t => t.x.toNat = (s.x.toNat + 1) % 256 ∧ t.y = s.y ∧ rest t.x t) ∧
    (RunsTo .iny s fun t => t.y.toNat = (s.y.toNat + 1) % 256 ∧ t.x = s.x ∧ rest t.y t) ∧
    (RunsTo .dex s fun t => t.x.toNat = (s.x.toNat + 255) % 256 ∧ t.y = s.y ∧ rest t.x t) ∧
    RunsTo .dey s fun t => t.y.toNat = (s.y.toNat + 255) % 256 ∧ t.x = s.x ∧ rest t.y t

/-- On A: ASL doubles modulo 256 with bit 7 into C, LSR halves with bit 0 into C, ROL doubles with the
previous C into bit 0, ROR halves with the previous C into bit 7; N and Z describe the result, V
and everything else stays. The dummy read at PC is the spec's general knowledge (log entry 16).
Rests on 40_status_alu.md section 3; 44_shift_rotate.md; 41_addressing.md sections 2 and 5. -/
def Obligations.ShiftsOnTheAccumulator : Prop :=
  ∀ s : State,
    let v := s.a.toNat
    let c := (getFlag .c s.p).toNat
    let rest := fun t : State => NzOf t.a t ∧ FlagsKept [.c, .n, .z] s t ∧
      t.x = s.x ∧ t.y = s.y ∧ t.sp = s.sp ∧ ImpliedFrame s t ∧ SameControl s t
    (RunsTo .aslAcc s fun t =>
      t.a.toNat = 2 * v % 256 ∧ getFlag .c t.p = decide (v ≥ 128) ∧ rest t) ∧
    (RunsTo .lsrAcc s fun t =>
      t.a.toNat = v / 2 ∧ getFlag .c t.p = decide (v % 2 = 1) ∧ getFlag .n t.p = false ∧ rest t) ∧
    (RunsTo .rolAcc s fun t =>
      t.a.toNat = (2 * v + c) % 256 ∧ getFlag .c t.p = decide (v ≥ 128) ∧ rest t) ∧
    RunsTo .rorAcc s fun t =>
      t.a.toNat = v / 2 + 128 * c ∧ getFlag .c t.p = decide (v % 2 = 1) ∧ rest t

/-- For every memory form of ASL, LSR, ROL and ROR: the byte at the effective address becomes the
shifted byte, C is the bit shifted out, N and Z describe the result, A and everything else stays;
the bus sees the read, the write of the unmodified byte and the write of the result (R139). The
base dummy read of zpx is the spec's general knowledge (log entry 16). Rests on 40_status_alu.md
section 3; 44_shift_rotate.md; 41_addressing.md sections 3 and 5. -/
def Obligations.ShiftsOnMemory : Prop :=
  ∀ (nn ll hh : Byte) (s : State),
    let c := (getFlag .c s.p).toNat
    let rest := fun (m : MemOperand) (r : Byte) (t : State) =>
      NzOf r t ∧ FlagsKept [.c, .n, .z] s t ∧
        t.a = s.a ∧ t.x = s.x ∧ t.y = s.y ∧ t.sp = s.sp ∧ RmwFrame m r s t
    (∀ f ∈ aslForms nn ll hh, RunsTo f.1 s fun t =>
      let v := (memByte f.2 .rmw s).toNat
      ∃ r : Byte, r.toNat = 2 * v % 256 ∧ getFlag .c t.p = decide (v ≥ 128) ∧ rest f.2 r t) ∧
    (∀ f ∈ lsrForms nn ll hh, RunsTo f.1 s fun t =>
      let v := (memByte f.2 .rmw s).toNat
      ∃ r : Byte, r.toNat = v / 2 ∧ getFlag .c t.p = decide (v % 2 = 1) ∧
        getFlag .n t.p = false ∧ rest f.2 r t) ∧
    (∀ f ∈ rolForms nn ll hh, RunsTo f.1 s fun t =>
      let v := (memByte f.2 .rmw s).toNat
      ∃ r : Byte, r.toNat = (2 * v + c) % 256 ∧ getFlag .c t.p = decide (v ≥ 128) ∧ rest f.2 r t) ∧
    ∀ f ∈ rorForms nn ll hh, RunsTo f.1 s fun t =>
      let v := (memByte f.2 .rmw s).toNat
      ∃ r : Byte, r.toNat = v / 2 + 128 * c ∧ getFlag .c t.p = decide (v % 2 = 1) ∧ rest f.2 r t

/-- For every form of the twelve read-modify-write instructions: after the accesses of the mode the
bus sees a read at the effective address, a write of that byte there, and a write of the result
there; the result is what stands there afterwards, and no other byte changes (R139). The base
dummy read of zpx and izx is the spec's general knowledge (log entry 16). Rests on
41_addressing.md sections 3 and 5. -/
def Obligations.RmwWritesTheUnmodifiedByteFirst : Prop :=
  ∀ (nn ll hh : Byte) (s : State), ∀ f ∈ rmwForms nn ll hh, RunsTo f.1 s fun t =>
    ∃ r : Byte, RmwFrame f.2 r s t

/-- Each branch, entered with PC past its opcode byte, fetches its displacement. When its flag has its
polarity, PC becomes the address after the displacement plus the signed displacement modulo 2^16,
after a dummy read at the address after the displacement and, when the target lies in another
page, a second one at the target's low byte under the old page; otherwise PC is the address after
the displacement and nothing more is read. No flag, register or memory byte changes. The flags and
polarities, and the address of the second dummy read, are the spec's general knowledge and its
decision D23 (log entries 16 and 23). Rests on 45_control.md section 1; 90_conflicts.md C2. -/
def Obligations.BranchesTestOneFlag : Prop :=
  ∀ (dd : Byte) (s : State), ∀ b ∈ branchForms dd, RunsTo b.1 s fun t =>
    let next := s.pc + 1
    t.pc = (if getFlag b.2.1 s.p = b.2.2 then branchTarget next dd else next) ∧
      Accesses (branchAccesses b.2.1 b.2.2 dd s) s t ∧ SameMemory s t ∧ SameControl s t ∧
      t.a = s.a ∧ t.x = s.x ∧ t.y = s.y ∧ t.sp = s.sp ∧ t.p = s.p

/-- JMP absolute fetches its two operand bytes, low first, and PC becomes the address they name;
nothing else changes. Rests on 45_control.md section 2. -/
def Obligations.JumpAbsoluteLoadsPc : Prop :=
  ∀ (ll hh : Byte) (s : State), RunsTo (.jmpAbs ll hh) s fun t =>
    t.pc = wordOf hh ll ∧ Accesses [rd s.pc ll, rd (s.pc + 1) hh] s t ∧ SameMemory s t ∧ SameControl s t ∧
      t.a = s.a ∧ t.x = s.x ∧ t.y = s.y ∧ t.sp = s.sp ∧ t.p = s.p

/-- JMP indirect fetches its pointer, reads the target's low byte at it and the high byte at the
address whose high byte is the pointer's and whose low byte is one more modulo 256, with no carry
into the high byte; PC becomes the target. Nothing else changes. Rules: R310. -/
def Obligations.JumpIndirectKeepsThePointersPage : Prop :=
  ∀ (ll hh : Byte) (s : State), encode (.jmpInd ll hh) = [0x6C#8, ll, hh] ∧
    RunsTo (.jmpInd ll hh) s fun t =>
      let ptr := wordOf hh ll
      let second := (ptr &&& 0xFF00#16) ||| ((ptr + 1) &&& 0x00FF#16)
      let lo := s.answerAt 2 ptr
      let hi := s.answerAt 3 second
      t.pc = wordOf hi lo ∧
        Accesses [rd s.pc ll, rd (s.pc + 1) hh, rd ptr lo, rd second hi] s t ∧
        SameMemory s t ∧ SameControl s t ∧
        t.a = s.a ∧ t.x = s.x ∧ t.y = s.y ∧ t.sp = s.sp ∧ t.p = s.p

/-- JSR, entered with PC past its opcode byte, fetches the target's low byte, makes a dummy read of
the stack, pushes the address of its third byte, high byte first, then reads that third byte as
the bus answers it then, and jumps. SP is 2 less; the two stack bytes change and no other; P and
the registers stay. The dummy read and the order of the accesses are the spec's general knowledge
(log entries 8 and 16), and the order of a push its decision D13 (log entry 23). Rests on
45_control.md section 3; 20_memory.md sections 4 and 6. -/
def Obligations.JsrPushesTheAddressOfItsLastByte : Prop :=
  ∀ (ll hh : Byte) (s : State), RunsTo (.jsr ll hh) s fun t =>
    let last := s.pc + 1
    let pushed := [highOf last, lowOf last]
    let hi := s.answerOr 2 (t.byteAt last)
    t.pc = wordOf hi ll ∧ t.sp = s.sp - 2 ∧ StackedOnly pushed s t ∧
      Accesses ([rd s.pc ll, rdAt s 1 (stackSlot s.sp)] ++ pushEvents s.sp pushed ++ [rd last hi]) s t ∧
      SameControl s t ∧ t.a = s.a ∧ t.x = s.x ∧ t.y = s.y ∧ t.p = s.p

/-- RTS pulls two bytes, low then high, and PC becomes their word plus 1 modulo 2^16; SP is 2 more;
nothing else changes. Its three dummy reads (at PC, at the stack pointer, at the pulled address)
are the spec's general knowledge (log entry 16), and the order of a pull its decision D13 (log
entry 23). Rests on 45_control.md section 3; 20_memory.md section 4. -/
def Obligations.RtsPullsPcAndStepsPastIt : Prop :=
  ∀ s : State, RunsTo .rts s fun t =>
    let lo := s.answerAt 2 (stackSlot (s.sp + 1))
    let hi := s.answerAt 3 (stackSlot (s.sp + 2))
    t.pc.toNat = (256 * hi.toNat + lo.toNat + 1) % 65536 ∧ t.sp = s.sp + 2 ∧
      Accesses [rdAt s 0 s.pc, rdAt s 1 (stackSlot s.sp), rd (stackSlot (s.sp + 1)) lo,
        rd (stackSlot (s.sp + 2)) hi, rdAt s 4 (wordOf hi lo)] s t ∧
      SameMemory s t ∧ SameControl s t ∧ t.a = s.a ∧ t.x = s.x ∧ t.y = s.y ∧ t.p = s.p

/-- With plain memory behind the bus, JSR and then RTS from wherever the jump went, with the stack as
JSR left it, brings PC to the address after the JSR's three bytes and SP, P, A, X and Y back to
what they were. Rests on 45_control.md section 3; 20_memory.md section 4. -/
def Obligations.RtsReturnsPastTheCall : Prop :=
  ∀ (ll hh : Byte) (s : State) (where_ : Word), PlainBus s →
    RunsTo (.jsr ll hh) s fun j =>
      RunsTo .rts { j with pc := where_ } fun t =>
        t.pc = s.pc + 2 ∧ t.sp = s.sp ∧ t.p = s.p ∧ t.a = s.a ∧ t.x = s.x ∧ t.y = s.y

/-- BRK, entered with PC past its opcode byte, fetches and discards a byte, pushes the address after
it, high byte first, pushes P | $30, sets I and loads PC from $FFFE and $FFFF, low byte first,
whatever I was. P's own B and U, D and the other flags, A, X and Y stay; SP is 3 less; only the
three stack bytes change. That D stays is the spec's general knowledge, and so is the order of a
push (log entry 23). Rests on 45_control.md section 4; 60_exceptions.md section 3. -/
def Obligations.BrkEntersTheHandler : Prop :=
  ∀ s : State, RunsTo .brk s fun t =>
    let after := s.pc + 1
    let pushed := [highOf after, lowOf after, s.p ||| 0x30#8]
    let lo := s.answerAt 1 0xFFFE#16
    let hi := s.answerAt 2 0xFFFF#16
    t.pc = wordOf hi lo ∧ t.sp = s.sp - 3 ∧ StackedOnly pushed s t ∧
      Accesses ([rdAt s 0 s.pc] ++ pushEvents s.sp pushed ++ [rd 0xFFFE#16 lo, rd 0xFFFF#16 hi]) s t ∧
      getFlag .i t.p = true ∧ FlagsKept [.i] s t ∧ SameControl s t ∧ t.a = s.a ∧ t.x = s.x ∧ t.y = s.y

/-- RTI pulls a byte into P, of which B and U keep the register's values, then PC, low byte first,
with no increment; SP is 3 more; nothing else changes. Its two dummy reads are the spec's general
knowledge (log entry 16), and the order of a pull its decision D13 (log entry 23). Rests on
45_control.md section 4; 60_exceptions.md section 4. -/
def Obligations.RtiRestoresStatusAndPc : Prop :=
  ∀ s : State, RunsTo .rti s fun t =>
    let v := s.answerAt 2 (stackSlot (s.sp + 1))
    let lo := s.answerAt 3 (stackSlot (s.sp + 2))
    let hi := s.answerAt 4 (stackSlot (s.sp + 3))
    t.pc = wordOf hi lo ∧ t.sp = s.sp + 3 ∧
      (∀ f : Flag, getFlag f t.p = if f = .b ∨ f = .u then getFlag f s.p else getFlag f v) ∧
      Accesses [rdAt s 0 s.pc, rdAt s 1 (stackSlot s.sp), rd (stackSlot (s.sp + 1)) v,
        rd (stackSlot (s.sp + 2)) lo, rd (stackSlot (s.sp + 3)) hi] s t ∧
      SameMemory s t ∧ SameControl s t ∧ t.a = s.a ∧ t.x = s.x ∧ t.y = s.y

/-- After an NMI or IRQ service, RTI from any handler state that has SP and the three stacked bytes as
the entry left them, and the register's own B and U as they were (which no instruction writes),
with plain memory behind the bus, brings PC, SP and P, all eight bits of it, back to what they
were before the service, and keeps the handler's A, X and Y. The handler may have changed every
other register, flag and byte. After BRK the same RTI brings PC to the address after the padding
byte. Rests on 60_exceptions.md sections 3 and 4; 45_control.md section 4; 40_status_alu.md
section 6. -/
def Obligations.RtiUndoesAnInterruptEntry : Prop :=
  (∀ (s h : State) (kind : Interrupt), PlainBus h → StackLeftAlone (service kind s) h →
    RunsTo .rti h fun t =>
      t.pc = s.pc ∧ t.sp = s.sp ∧ t.p = s.p ∧ t.a = h.a ∧ t.x = h.x ∧ t.y = h.y) ∧
  ∀ s : State, RunsTo .brk s fun e => ∀ h : State, PlainBus h → StackLeftAlone e h →
    RunsTo .rti h fun t =>
      t.pc = s.pc + 1 ∧ t.sp = s.sp ∧ t.p = s.p ∧ t.a = h.a ∧ t.x = h.x ∧ t.y = h.y

/-- PHA and PHP make a dummy read at PC, write A, respectively P | $30, at the stack pointer, and SP
is 1 less; no other byte, register or flag changes. The dummy read is the spec's general knowledge
(log entry 16), and so are PHA's existence and effect and the order of a push (log entry 23).
Rests on 46_stack_flags_nop.md section 1; 20_memory.md section 4. -/
def Obligations.PushesWriteOneStackByte : Prop :=
  ∀ s : State,
    ∀ q ∈ [(Instr.pha, s.a), (.php, s.p ||| 0x30#8)], RunsTo q.1 s fun t =>
      t.sp = s.sp - 1 ∧ StackedOnly [q.2] s t ∧
        Accesses [rdAt s 0 s.pc, wr (stackSlot s.sp) q.2] s t ∧ t.pc = s.pc ∧ SameControl s t ∧
        t.a = s.a ∧ t.x = s.x ∧ t.y = s.y ∧ t.p = s.p

/-- PLA and PLP make dummy reads at PC and at the stack pointer, SP is 1 more, and the byte there is
read. PLA puts it in A and sets N and Z; PLP puts it in P but for B and U, which keep the
register's values. Nothing else changes. The dummy reads are the spec's general knowledge (log
entry 16), and so is the order of a pull (log entry 23). Rests on 46_stack_flags_nop.md section 1;
40_status_alu.md section 1. -/
def Obligations.PullsReadOneStackByte : Prop :=
  ∀ s : State,
    let v := s.answerAt 2 (stackSlot (s.sp + 1))
    let rest := fun t : State => t.sp = s.sp + 1 ∧
      Accesses [rdAt s 0 s.pc, rdAt s 1 (stackSlot s.sp), rd (stackSlot (s.sp + 1)) v] s t ∧
      SameMemory s t ∧ t.pc = s.pc ∧ SameControl s t ∧ t.x = s.x ∧ t.y = s.y
    (RunsTo .pla s fun t => t.a = v ∧ NzOf v t ∧ FlagsKept [.n, .z] s t ∧ rest t) ∧
    RunsTo .plp s fun t => t.a = s.a ∧ rest t ∧
      ∀ f : Flag, getFlag f t.p = if f = .b ∨ f = .u then getFlag f s.p else getFlag f v

/-- Each flag instruction gives its flag its value, keeps every other flag, makes the dummy read of
pattern IMP and changes nothing else. Their existence and effects are the spec's general knowledge
(log entry 23), and so is the dummy read at PC (log entry 16). Rests on 46_stack_flags_nop.md
section 2. -/
def Obligations.FlagInstructionsWriteOneFlag : Prop :=
  ∀ s : State,
    ∀ q ∈ [(Instr.clc, Flag.c, false), (.sec, .c, true), (.cli, .i, false), (.sei, .i, true),
        (.clv, .v, false), (.cld, .d, false), (.sed, .d, true)],
      RunsTo q.1 s fun t => getFlag q.2.1 t.p = q.2.2 ∧ FlagsKept [q.2.1] s t ∧ ImpliedFrame s t ∧
        SameControl s t ∧ t.a = s.a ∧ t.x = s.x ∧ t.y = s.y ∧ t.sp = s.sp

/-- The documented NOP and the illegal NOPs of mode imp make a dummy read at PC; the illegal NOPs with
an operand make every access of their mode, the operand read included. None changes a register, a
flag or memory; PC moves past the operand bytes. The dummy read at PC of mode imp and the base
dummy read of zpx are the spec's general knowledge (log entry 16). Rests on 46_stack_flags_nop.md
section 3; 48_illegal_other.md section 4. -/
def Obligations.NopsChangeOnlyPc : Prop :=
  ∀ (o : NopImpOpcode) (o1 : NopImmOpcode) (o2 : NopZpgOpcode) (o3 : NopZpxOpcode) (o4 : NopAbxOpcode)
    (nn ll hh : Byte) (s : State),
    let kept := fun t : State => t.a = s.a ∧ t.x = s.x ∧ t.y = s.y ∧ t.sp = s.sp ∧ t.p = s.p
    (∀ i ∈ [Instr.nop, .nopImp o], RunsTo i s fun t =>
      kept t ∧ ImpliedFrame s t ∧ SameControl s t) ∧
    ∀ f ∈ nopForms o1 o2 o3 o4 nn ll hh, RunsTo f.1 s fun t => kept t ∧ ReadFrame f.2 s t

/-- Each of the twelve STP opcodes makes a dummy read at PC, which stays, and sets halted; nothing
else changes. Its access and its PC are the spec's decision D7 (log entry 12). Rests on
48_illegal_other.md section 5. -/
def Obligations.StpHalts : Prop :=
  ∀ (o : StpOpcode) (s : State), RunsTo (.stp o) s fun t =>
    t.halted = true ∧ ImpliedFrame s t ∧ t.pendingNmi = s.pendingNmi ∧ t.pendingIrq = s.pendingIrq ∧
      t.a = s.a ∧ t.x = s.x ∧ t.y = s.y ∧ t.sp = s.sp ∧ t.p = s.p

/-- For every form: SLO stores the byte shifted left and ors it into A, RLA stores it rotated left
through C and ands it into A, SRE stores it shifted right and exclusive-ors it into A. C is the
bit shifted out, N and Z describe A, V stays, and nothing else changes but PC, the bus log and the
answers used up. The base dummy read of zpx and izx is the spec's general knowledge (log entry
16), and the flags are those the spec derives from the two halves (log entry 23). Rests on
47_illegal_combined.md section 1; 40_status_alu.md section 3. -/
def Obligations.ShiftAndLogicCombine : Prop :=
  ∀ (nn ll hh : Byte) (s : State),
    let c := (getFlag .c s.p).toNat
    let rest := fun (m : MemOperand) (r : Byte) (t : State) => NzOf t.a t ∧ FlagsKept [.c, .n, .z] s t ∧
      t.x = s.x ∧ t.y = s.y ∧ t.sp = s.sp ∧ RmwFrame m r s t
    (∀ f ∈ sloForms nn ll hh, RunsTo f.1 s fun t =>
      let v := (memByte f.2 .rmw s).toNat
      ∃ r : Byte, r.toNat = 2 * v % 256 ∧ t.a = s.a ||| r ∧
        getFlag .c t.p = decide (v ≥ 128) ∧ rest f.2 r t) ∧
    (∀ f ∈ rlaForms nn ll hh, RunsTo f.1 s fun t =>
      let v := (memByte f.2 .rmw s).toNat
      ∃ r : Byte, r.toNat = (2 * v + c) % 256 ∧ t.a = s.a &&& r ∧
        getFlag .c t.p = decide (v ≥ 128) ∧ rest f.2 r t) ∧
    ∀ f ∈ sreForms nn ll hh, RunsTo f.1 s fun t =>
      let v := (memByte f.2 .rmw s).toNat
      ∃ r : Byte, r.toNat = v / 2 ∧ t.a = s.a ^^^ r ∧
        getFlag .c t.p = decide (v % 2 = 1) ∧ rest f.2 r t

/-- For every form: RRA stores the byte rotated right through C and adds it to A with the bit shifted
out as the carry; ISC stores the byte plus 1 and subtracts it from A as SBC does. C, V, N and Z
are those of the addition or subtraction, D is not read, and nothing else changes but PC, the bus
log and the answers used up. The base dummy read of zpx and izx is the spec's general knowledge
(log entry 16), and the flags are those the spec derives from the two halves (log entry 23). Rests
on 47_illegal_combined.md section 1; 40_status_alu.md section 2. -/
def Obligations.RotateAndAddCombine : Prop :=
  ∀ (nn ll hh : Byte) (s : State),
    let rest := fun (m : MemOperand) (r : Byte) (t : State) => FlagsKept [.c, .v, .n, .z] s t ∧
      t.x = s.x ∧ t.y = s.y ∧ t.sp = s.sp ∧ RmwFrame m r s t
    (∀ f ∈ rraForms nn ll hh, RunsTo f.1 s fun t =>
      let v := (memByte f.2 .rmw s).toNat
      ∃ r : Byte, r.toNat = v / 2 + 128 * (getFlag .c s.p).toNat ∧
        AddResult s.a r (decide (v % 2 = 1)) t ∧ rest f.2 r t) ∧
    ∀ f ∈ iscForms nn ll hh, RunsTo f.1 s fun t =>
      let v := (memByte f.2 .rmw s).toNat
      ∃ r : Byte, r.toNat = (v + 1) % 256 ∧
        AddResult s.a (r ^^^ 0xFF#8) (getFlag .c s.p) t ∧ SubResult s.a r (getFlag .c s.p) t ∧
        rest f.2 r t

/-- ANC ands the operand into A and copies N into C; ALR ands and shifts right with bit 0 into C; ARR
ands and rotates right through C, with C = bit 6 and V = bit 6 xor bit 5 of the result. N and Z
describe A; nothing else changes but PC, the bus log and the answers used up. Both opcodes of ANC
do the same. The flags of ALR and ARR beyond the stated C and V are those the spec derives (log
entry 23). Rests on 48_illegal_other.md section 1. -/
def Obligations.ImmediateAndCombinations : Prop :=
  ∀ (o : AncImmOpcode) (nn : Byte) (s : State),
    let t0 := (s.a &&& nn).toNat
    let rest := fun t : State => NzOf t.a t ∧ t.x = s.x ∧ t.y = s.y ∧ t.sp = s.sp ∧
      ReadFrame (.imm nn) s t
    (RunsTo (.ancImm o nn) s fun t =>
      t.a.toNat = t0 ∧ getFlag .c t.p = getFlag .n t.p ∧ FlagsKept [.c, .n, .z] s t ∧ rest t) ∧
    (RunsTo (.alrImm nn) s fun t =>
      t.a.toNat = t0 / 2 ∧ getFlag .c t.p = decide (t0 % 2 = 1) ∧ getFlag .n t.p = false ∧
        FlagsKept [.c, .n, .z] s t ∧ rest t) ∧
    RunsTo (.arrImm nn) s fun t =>
      t.a.toNat = t0 / 2 + 128 * (getFlag .c s.p).toNat ∧ getFlag .c t.p = t.a.getLsbD 6 ∧
        getFlag .v t.p = (t.a.getLsbD 6 ^^ t.a.getLsbD 5) ∧ FlagsKept [.c, .v, .n, .z] s t ∧ rest t

/-- ANE: each bit of A becomes (A or $EE) and X and the operand; LXA: A and X become (A or $EE) and
the operand; N and Z describe the result; nothing else changes but PC, the bus log and the answers
used up. LXA's constant is the spec's decision D8 and the flags its decision D17 (log entries 13
and 15). Rests on 48_illegal_other.md section 1; 92_eei_decisions.md D8 and D17. -/
def Obligations.MagicConstantInstructions : Prop :=
  ∀ (nn : Byte) (s : State),
    let rest := fun t : State => NzOf t.a t ∧ FlagsKept [.n, .z] s t ∧ t.y = s.y ∧ t.sp = s.sp ∧
      ReadFrame (.imm nn) s t
    (RunsTo (.aneImm nn) s fun t => rest t ∧ t.x = s.x ∧
      ∀ k, t.a.getLsbD k = ((s.a.getLsbD k || (0xEE#8).getLsbD k) && s.x.getLsbD k && nn.getLsbD k)) ∧
    RunsTo (.lxaImm nn) s fun t => rest t ∧ t.x = t.a ∧
      ∀ k, t.a.getLsbD k = ((s.a.getLsbD k || (0xEE#8).getLsbD k) && nn.getLsbD k)

/-- SBX: X becomes (A and X) minus the operand modulo 256, C is no borrow, the incoming carry is not
used, A stays. LAS: A, X and SP become SP and the byte read. N and Z describe the result; nothing
else changes but PC, the bus log and the answers used up. N and Z are what the spec derives (log
entry 23). Rests on 48_illegal_other.md sections 1 and 2. -/
def Obligations.SbxAndLas : Prop :=
  ∀ (nn ll hh : Byte) (s : State),
    (RunsTo (.sbxImm nn) s fun t =>
      let t0 := (s.a &&& s.x).toNat
      t.x.toNat = (t0 + 256 - nn.toNat) % 256 ∧ getFlag .c t.p = decide (nn.toNat ≤ t0) ∧ NzOf t.x t ∧
        FlagsKept [.c, .n, .z] s t ∧ t.a = s.a ∧ t.y = s.y ∧ t.sp = s.sp ∧ ReadFrame (.imm nn) s t) ∧
    RunsTo (.lasAby ll hh) s fun t =>
      let o := Operand.mem (.aby ll hh)
      t.sp = s.sp &&& operandByte o s ∧ t.a = t.sp ∧ t.x = t.sp ∧ NzOf t.sp t ∧
        FlagsKept [.n, .z] s t ∧ t.y = s.y ∧ ReadFrame o s t

/-- Each stores reg and (H + 1), with H the high byte of the unindexed base (the pointer's for SHA's
izy form) and reg = A and X for SHA and TAS, X for SHX, Y for SHY; on a page crossing that byte is
also the high byte of the address. The dummy read at the un-fixed address is always made. TAS also
sets SP to A and X; nothing else changes but PC, the bus log and the answers used up. That H is
the base's high byte is the spec's decision D9 (log entry 14). Rests on 48_illegal_other.md
section 3; 92_eei_decisions.md D9. -/
def Obligations.HighByteStores : Prop :=
  ∀ (nn ll hh : Byte) (s : State),
    let store := fun (m : MemOperand) (reg base low index : Byte) (t : State) =>
      let v := reg &&& (base + 1)
      let addr := if crosses low index then addrOf (256 * v.toNat + (low.toNat + index.toNat) % 256)
        else effAddr m s
      t.pc = s.pc + addrOf (memSize m) ∧ Accesses (modeAccesses m .write s ++ [wr addr v]) s t ∧
        StoresOnly addr v s t ∧ SameControl s t ∧ t.a = s.a ∧ t.x = s.x ∧ t.y = s.y ∧ t.p = s.p
    let low := s.answerAt 1 (addrOf nn.toNat)
    let high := s.answerAt 2 (addrOf ((nn.toNat + 1) % 256))
    (RunsTo (.shaAby ll hh) s fun t =>
      store (.aby ll hh) (s.a &&& s.x) hh ll s.y t ∧ t.sp = s.sp) ∧
    (RunsTo (.shaIzy nn) s fun t => store (.izy nn) (s.a &&& s.x) high low s.y t ∧ t.sp = s.sp) ∧
    (RunsTo (.shxAby ll hh) s fun t => store (.aby ll hh) s.x hh ll s.y t ∧ t.sp = s.sp) ∧
    (RunsTo (.shyAbx ll hh) s fun t => store (.abx ll hh) s.y hh ll s.x t ∧ t.sp = s.sp) ∧
    RunsTo (.tasAby ll hh) s fun t =>
      store (.aby ll hh) (s.a &&& s.x) hh ll s.y t ∧ t.sp = s.a &&& s.x

/-- For every instruction and state, the accesses the meaning appends, with the opcode fetch, number
what the table of R560 gives its opcode: its fixed count; its count and one more exactly when the
indexed address crosses a page; for a branch 2 when it is not taken, 3 when it is taken and 4 when
it is taken to another page. The table is a consequence of the access rules, which the spec fills
in from general knowledge (log entry 16), as it does the flags and polarities of the branches (log
entry 23). Rests on 70_reset_and_hazards.md section 4; 41_addressing.md section 5; 45_control.md
section 1. -/
def Obligations.EveryInstructionMakesItsTabulatedAccesses : Prop :=
  ∀ (i : Instr) (s : State), RunsTo i s fun t =>
    ∃ n, t.log.length = s.log.length + n ∧
      match countOf ((encode i).headD 0) with
      | .fixed k => n + 1 = k
      | .crossing k => n + 1 = k + (addressCrosses i s).toNat
      | .branch => ∃ f polarity dd, (i, f, polarity) ∈ branchForms dd ∧ n + 1 = branchCount f polarity dd s
end

