-- ==== Sys2Proof/Laws/Flags.lean ====
section
/-! SUPPORT. Reading a flag of a status byte that an operation has written. -/

namespace Sys2Proof.Machine

/-- Setting one flag sets it and leaves every other flag alone. -/
@[simp] theorem getFlag_setFlag (f g : Flag) (on : Bool) (p : Byte) :
    getFlag f (setFlag g on p) = if f = g then on else getFlag f p := by
  cases on <;> cases f <;> cases g <;> simp [getFlag, setFlag, Flag.bit, Flag.mask]

/-- Two status bytes with the same flags are the same byte (R24: P is the eight flags). -/
theorem status_ext {p q : Byte} (h : ∀ f, getFlag f p = getFlag f q) : p = q := by
  apply BitVec.eq_of_getLsbD_eq
  intro k hk
  have hc := h .c; have hz := h .z; have hi := h .i; have hd := h .d
  have hb := h .b; have hu := h .u; have hv := h .v; have hn := h .n
  simp only [getFlag, Flag.bit] at hc hz hi hd hb hu hv hn
  have : k = 0 ∨ k = 1 ∨ k = 2 ∨ k = 3 ∨ k = 4 ∨ k = 5 ∨ k = 6 ∨ k = 7 := by omega
  rcases this with rfl | rfl | rfl | rfl | rfl | rfl | rfl | rfl <;> assumption

/-- `set_nz` writes N and Z and nothing else (R100). -/
@[simp] theorem getFlag_setNz (f : Flag) (v p : Byte) :
    getFlag f (setNz v p) =
      if f = .n then v.getLsbD 7 else if f = .z then v == 0 else getFlag f p := by
  simp [setNz]

/-- The byte a push of P writes has U set and B as the caller says, the rest from P (R101). -/
@[simp] theorem getFlag_pushRepr (f : Flag) (b : Bool) (p : Byte) :
    getFlag f (pushRepr b p) = if f = .u then true else if f = .b then b else getFlag f p := by
  cases b <;> cases f <;> simp [getFlag, pushRepr, Flag.bit]

/-- A pulled byte gives every flag but B and U, which stay (R102). -/
@[simp] theorem getFlag_pullRepr (f : Flag) (v p : Byte) :
    getFlag f (pullRepr v p) = if f = .b ∨ f = .u then getFlag f p else getFlag f v := by
  cases f <;> simp [getFlag, pullRepr, Flag.bit]

/-- Pulling a byte that a push of P wrote gives P back, whatever B the push forced (R101, R102). -/
theorem pullRepr_pushRepr (b : Bool) (p q : Byte) (hb : getFlag .b q = getFlag .b p)
    (hu : getFlag .u q = getFlag .u p) : pullRepr (pushRepr b p) q = p :=
  status_ext fun f => by cases f <;> simp [hb, hu]

/-- The flags of an addition (R103). -/
@[simp] theorem getFlag_adcAlu (f : Flag) (a val p : Byte) :
    getFlag f (adcAlu a val p).2 =
      if f = .n then (adcAlu a val p).1.getLsbD 7
      else if f = .z then (adcAlu a val p).1 == 0
      else if f = .v then
        ((a ^^^ (adcAlu a val p).1) &&& (val ^^^ (adcAlu a val p).1) &&& 0x80) != 0
      else if f = .c then decide (a.toNat + val.toNat + carryIn p > 0xFF)
      else getFlag f p := by
  simp [adcAlu]

/-- The flags of a comparison (R105). -/
@[simp] theorem getFlag_compareFlags (f : Flag) (reg val p : Byte) :
    getFlag f (compareFlags reg val p) =
      if f = .n then (reg - val).getLsbD 7
      else if f = .z then (reg - val) == 0
      else if f = .c then decide (val.toNat ≤ reg.toNat)
      else getFlag f p := by
  simp [compareFlags]

/-- The flags of BIT (R112). -/
@[simp] theorem getFlag_bitFlags (f : Flag) (a val p : Byte) :
    getFlag f (bitFlags a val p) =
      if f = .v then val.getLsbD 6
      else if f = .n then val.getLsbD 7
      else if f = .z then (a &&& val) == 0
      else getFlag f p := by
  simp [bitFlags]

/-- Bit 7 of a byte says whether its value is 128 or more. -/
theorem bit7_eq (v : Byte) : v[7] = decide (128 ≤ v.toNat) := by
  rw [← BitVec.getLsbD_eq_getElem, ← BitVec.msb_eq_getLsbD_last, BitVec.msb_eq_decide]

/-- A byte is zero exactly when its value is 0. -/
theorem isZero_eq (v : Byte) : (v == 0#8) = decide (v.toNat = 0) := by
  rw [Bool.eq_iff_iff]
  simp [← BitVec.toNat_inj]

end Sys2Proof.Machine
end

