-- ==== Sys2Proof/Laws/State.lean ====
section
/-! SUPPORT. What each named update of the state does to each field, one lemma per field. -/

namespace Sys2Proof.Machine

/-! ### One bus access -/

@[simp] theorem noteRead_a (addr : Word) (v : Byte) (s : State) :
    (noteRead addr v s).a = s.a := rfl
@[simp] theorem noteRead_x (addr : Word) (v : Byte) (s : State) :
    (noteRead addr v s).x = s.x := rfl
@[simp] theorem noteRead_y (addr : Word) (v : Byte) (s : State) :
    (noteRead addr v s).y = s.y := rfl
@[simp] theorem noteRead_sp (addr : Word) (v : Byte) (s : State) :
    (noteRead addr v s).sp = s.sp := rfl
@[simp] theorem noteRead_p (addr : Word) (v : Byte) (s : State) :
    (noteRead addr v s).p = s.p := rfl
@[simp] theorem noteRead_pc (addr : Word) (v : Byte) (s : State) :
    (noteRead addr v s).pc = s.pc := rfl
@[simp] theorem noteRead_halted (addr : Word) (v : Byte) (s : State) :
    (noteRead addr v s).halted = s.halted := rfl
@[simp] theorem noteRead_pendingNmi (addr : Word) (v : Byte) (s : State) :
    (noteRead addr v s).pendingNmi = s.pendingNmi := rfl
@[simp] theorem noteRead_pendingIrq (addr : Word) (v : Byte) (s : State) :
    (noteRead addr v s).pendingIrq = s.pendingIrq := rfl
@[simp] theorem noteRead_mem (addr : Word) (v : Byte) (s : State) :
    (noteRead addr v s).mem = s.mem := rfl
@[simp] theorem noteRead_busInput (addr : Word) (v : Byte) (s : State) :
    (noteRead addr v s).busInput = s.busInput.tail := rfl
@[simp] theorem noteRead_log (addr : Word) (v : Byte) (s : State) :
    (noteRead addr v s).log = s.log ++ [⟨addr, v, .read⟩] := rfl

@[simp] theorem busRead_value (addr : Word) (s : State) : (busRead addr s).1 = busAnswer addr s := rfl

@[simp] theorem busRead_a (addr : Word) (s : State) : ((busRead addr s).2).a = s.a := rfl
@[simp] theorem busRead_x (addr : Word) (s : State) : ((busRead addr s).2).x = s.x := rfl
@[simp] theorem busRead_y (addr : Word) (s : State) : ((busRead addr s).2).y = s.y := rfl
@[simp] theorem busRead_sp (addr : Word) (s : State) : ((busRead addr s).2).sp = s.sp := rfl
@[simp] theorem busRead_p (addr : Word) (s : State) : ((busRead addr s).2).p = s.p := rfl
@[simp] theorem busRead_pc (addr : Word) (s : State) : ((busRead addr s).2).pc = s.pc := rfl
@[simp] theorem busRead_halted (addr : Word) (s : State) :
    ((busRead addr s).2).halted = s.halted := rfl
@[simp] theorem busRead_pendingNmi (addr : Word) (s : State) :
    ((busRead addr s).2).pendingNmi = s.pendingNmi := rfl
@[simp] theorem busRead_pendingIrq (addr : Word) (s : State) :
    ((busRead addr s).2).pendingIrq = s.pendingIrq := rfl
@[simp] theorem busRead_mem (addr : Word) (s : State) : ((busRead addr s).2).mem = s.mem := rfl
@[simp] theorem busRead_busInput (addr : Word) (s : State) :
    ((busRead addr s).2).busInput = s.busInput.tail := rfl
@[simp] theorem busRead_log (addr : Word) (s : State) :
    ((busRead addr s).2).log = s.log ++ [⟨addr, busAnswer addr s, .read⟩] := rfl

@[simp] theorem dummyRead_a (addr : Word) (s : State) : (dummyRead addr s).a = s.a := rfl
@[simp] theorem dummyRead_x (addr : Word) (s : State) : (dummyRead addr s).x = s.x := rfl
@[simp] theorem dummyRead_y (addr : Word) (s : State) : (dummyRead addr s).y = s.y := rfl
@[simp] theorem dummyRead_sp (addr : Word) (s : State) : (dummyRead addr s).sp = s.sp := rfl
@[simp] theorem dummyRead_p (addr : Word) (s : State) : (dummyRead addr s).p = s.p := rfl
@[simp] theorem dummyRead_pc (addr : Word) (s : State) : (dummyRead addr s).pc = s.pc := rfl
@[simp] theorem dummyRead_halted (addr : Word) (s : State) :
    (dummyRead addr s).halted = s.halted := rfl
@[simp] theorem dummyRead_pendingNmi (addr : Word) (s : State) :
    (dummyRead addr s).pendingNmi = s.pendingNmi := rfl
@[simp] theorem dummyRead_pendingIrq (addr : Word) (s : State) :
    (dummyRead addr s).pendingIrq = s.pendingIrq := rfl
@[simp] theorem dummyRead_mem (addr : Word) (s : State) : (dummyRead addr s).mem = s.mem := rfl
@[simp] theorem dummyRead_busInput (addr : Word) (s : State) :
    (dummyRead addr s).busInput = s.busInput.tail := rfl
@[simp] theorem dummyRead_log (addr : Word) (s : State) :
    (dummyRead addr s).log = s.log ++ [⟨addr, busAnswer addr s, .read⟩] := rfl

@[simp] theorem busWrite_a (addr : Word) (v : Byte) (s : State) :
    (busWrite addr v s).a = s.a := rfl
@[simp] theorem busWrite_x (addr : Word) (v : Byte) (s : State) :
    (busWrite addr v s).x = s.x := rfl
@[simp] theorem busWrite_y (addr : Word) (v : Byte) (s : State) :
    (busWrite addr v s).y = s.y := rfl
@[simp] theorem busWrite_sp (addr : Word) (v : Byte) (s : State) :
    (busWrite addr v s).sp = s.sp := rfl
@[simp] theorem busWrite_p (addr : Word) (v : Byte) (s : State) :
    (busWrite addr v s).p = s.p := rfl
@[simp] theorem busWrite_pc (addr : Word) (v : Byte) (s : State) :
    (busWrite addr v s).pc = s.pc := rfl
@[simp] theorem busWrite_halted (addr : Word) (v : Byte) (s : State) :
    (busWrite addr v s).halted = s.halted := rfl
@[simp] theorem busWrite_pendingNmi (addr : Word) (v : Byte) (s : State) :
    (busWrite addr v s).pendingNmi = s.pendingNmi := rfl
@[simp] theorem busWrite_pendingIrq (addr : Word) (v : Byte) (s : State) :
    (busWrite addr v s).pendingIrq = s.pendingIrq := rfl
@[simp] theorem busWrite_mem (addr : Word) (v : Byte) (s : State) :
    (busWrite addr v s).mem = Memory.write s.mem addr.toNat v := rfl
@[simp] theorem busWrite_busInput (addr : Word) (v : Byte) (s : State) :
    (busWrite addr v s).busInput = s.busInput := rfl
@[simp] theorem busWrite_log (addr : Word) (v : Byte) (s : State) :
    (busWrite addr v s).log = s.log ++ [⟨addr, v, .write⟩] := rfl

/-! ### Fetching -/

@[simp] theorem fetchOperand_a (v : Byte) (s : State) : (fetchOperand v s).a = s.a := rfl
@[simp] theorem fetchOperand_x (v : Byte) (s : State) : (fetchOperand v s).x = s.x := rfl
@[simp] theorem fetchOperand_y (v : Byte) (s : State) : (fetchOperand v s).y = s.y := rfl
@[simp] theorem fetchOperand_sp (v : Byte) (s : State) : (fetchOperand v s).sp = s.sp := rfl
@[simp] theorem fetchOperand_p (v : Byte) (s : State) : (fetchOperand v s).p = s.p := rfl
@[simp] theorem fetchOperand_pc (v : Byte) (s : State) : (fetchOperand v s).pc = s.pc + 1 := rfl
@[simp] theorem fetchOperand_halted (v : Byte) (s : State) :
    (fetchOperand v s).halted = s.halted := rfl
@[simp] theorem fetchOperand_pendingNmi (v : Byte) (s : State) :
    (fetchOperand v s).pendingNmi = s.pendingNmi := rfl
@[simp] theorem fetchOperand_pendingIrq (v : Byte) (s : State) :
    (fetchOperand v s).pendingIrq = s.pendingIrq := rfl
@[simp] theorem fetchOperand_mem (v : Byte) (s : State) : (fetchOperand v s).mem = s.mem := rfl
@[simp] theorem fetchOperand_busInput (v : Byte) (s : State) :
    (fetchOperand v s).busInput = s.busInput.tail := rfl
@[simp] theorem fetchOperand_log (v : Byte) (s : State) :
    (fetchOperand v s).log = s.log ++ [⟨s.pc, v, .read⟩] := rfl

@[simp] theorem fetch8_value (s : State) : (fetch8 s).1 = busAnswer s.pc s := rfl

@[simp] theorem fetch8_a (s : State) : ((fetch8 s).2).a = s.a := rfl
@[simp] theorem fetch8_x (s : State) : ((fetch8 s).2).x = s.x := rfl
@[simp] theorem fetch8_y (s : State) : ((fetch8 s).2).y = s.y := rfl
@[simp] theorem fetch8_sp (s : State) : ((fetch8 s).2).sp = s.sp := rfl
@[simp] theorem fetch8_p (s : State) : ((fetch8 s).2).p = s.p := rfl
@[simp] theorem fetch8_pc (s : State) : ((fetch8 s).2).pc = s.pc + 1 := rfl
@[simp] theorem fetch8_halted (s : State) : ((fetch8 s).2).halted = s.halted := rfl
@[simp] theorem fetch8_pendingNmi (s : State) : ((fetch8 s).2).pendingNmi = s.pendingNmi := rfl
@[simp] theorem fetch8_pendingIrq (s : State) : ((fetch8 s).2).pendingIrq = s.pendingIrq := rfl
@[simp] theorem fetch8_mem (s : State) : ((fetch8 s).2).mem = s.mem := rfl
@[simp] theorem fetch8_busInput (s : State) : ((fetch8 s).2).busInput = s.busInput.tail := rfl
@[simp] theorem fetch8_log (s : State) :
    ((fetch8 s).2).log = s.log ++ [⟨s.pc, busAnswer s.pc s, .read⟩] := rfl

/-! ### The stack -/

@[simp] theorem push_a (v : Byte) (s : State) : (push v s).a = s.a := rfl
@[simp] theorem push_x (v : Byte) (s : State) : (push v s).x = s.x := rfl
@[simp] theorem push_y (v : Byte) (s : State) : (push v s).y = s.y := rfl
@[simp] theorem push_sp (v : Byte) (s : State) : (push v s).sp = s.sp - 1 := rfl
@[simp] theorem push_p (v : Byte) (s : State) : (push v s).p = s.p := rfl
@[simp] theorem push_pc (v : Byte) (s : State) : (push v s).pc = s.pc := rfl
@[simp] theorem push_halted (v : Byte) (s : State) : (push v s).halted = s.halted := rfl
@[simp] theorem push_pendingNmi (v : Byte) (s : State) :
    (push v s).pendingNmi = s.pendingNmi := rfl
@[simp] theorem push_pendingIrq (v : Byte) (s : State) :
    (push v s).pendingIrq = s.pendingIrq := rfl
@[simp] theorem push_mem (v : Byte) (s : State) :
    (push v s).mem = Memory.write s.mem (stackAddr s.sp).toNat v := rfl
@[simp] theorem push_busInput (v : Byte) (s : State) : (push v s).busInput = s.busInput := rfl
@[simp] theorem push_log (v : Byte) (s : State) :
    (push v s).log = s.log ++ [⟨stackAddr s.sp, v, .write⟩] := rfl

@[simp] theorem pull_value (s : State) : (pull s).1 = busAnswer (stackAddr (s.sp + 1)) s := rfl

@[simp] theorem pull_a (s : State) : ((pull s).2).a = s.a := rfl
@[simp] theorem pull_x (s : State) : ((pull s).2).x = s.x := rfl
@[simp] theorem pull_y (s : State) : ((pull s).2).y = s.y := rfl
@[simp] theorem pull_sp (s : State) : ((pull s).2).sp = s.sp + 1 := rfl
@[simp] theorem pull_p (s : State) : ((pull s).2).p = s.p := rfl
@[simp] theorem pull_pc (s : State) : ((pull s).2).pc = s.pc := rfl
@[simp] theorem pull_halted (s : State) : ((pull s).2).halted = s.halted := rfl
@[simp] theorem pull_pendingNmi (s : State) : ((pull s).2).pendingNmi = s.pendingNmi := rfl
@[simp] theorem pull_pendingIrq (s : State) : ((pull s).2).pendingIrq = s.pendingIrq := rfl
@[simp] theorem pull_mem (s : State) : ((pull s).2).mem = s.mem := rfl
@[simp] theorem pull_busInput (s : State) : ((pull s).2).busInput = s.busInput.tail := rfl
@[simp] theorem pull_log (s : State) :
    ((pull s).2).log = s.log ++ [⟨stackAddr (s.sp + 1), busAnswer (stackAddr (s.sp + 1)) s, .read⟩] := rfl

/-! ### The start of a step and the host's calls -/

@[simp] theorem beginStep_a (s : State) : (beginStep s).a = s.a := rfl
@[simp] theorem beginStep_x (s : State) : (beginStep s).x = s.x := rfl
@[simp] theorem beginStep_y (s : State) : (beginStep s).y = s.y := rfl
@[simp] theorem beginStep_sp (s : State) : (beginStep s).sp = s.sp := rfl
@[simp] theorem beginStep_p (s : State) : (beginStep s).p = s.p := rfl
@[simp] theorem beginStep_pc (s : State) : (beginStep s).pc = s.pc := rfl
@[simp] theorem beginStep_halted (s : State) : (beginStep s).halted = s.halted := rfl
@[simp] theorem beginStep_pendingNmi (s : State) : (beginStep s).pendingNmi = s.pendingNmi := rfl
@[simp] theorem beginStep_pendingIrq (s : State) : (beginStep s).pendingIrq = s.pendingIrq := rfl
@[simp] theorem beginStep_mem (s : State) : (beginStep s).mem = s.mem := rfl
@[simp] theorem beginStep_busInput (s : State) : (beginStep s).busInput = s.busInput := rfl
@[simp] theorem beginStep_log (s : State) : (beginStep s).log = [] := rfl

@[simp] theorem triggerNmi_a (s : State) : (s.triggerNmi).a = s.a := rfl
@[simp] theorem triggerNmi_x (s : State) : (s.triggerNmi).x = s.x := rfl
@[simp] theorem triggerNmi_y (s : State) : (s.triggerNmi).y = s.y := rfl
@[simp] theorem triggerNmi_sp (s : State) : (s.triggerNmi).sp = s.sp := rfl
@[simp] theorem triggerNmi_p (s : State) : (s.triggerNmi).p = s.p := rfl
@[simp] theorem triggerNmi_pc (s : State) : (s.triggerNmi).pc = s.pc := rfl
@[simp] theorem triggerNmi_halted (s : State) : (s.triggerNmi).halted = s.halted := rfl
@[simp] theorem triggerNmi_pendingNmi (s : State) : (s.triggerNmi).pendingNmi = true := rfl
@[simp] theorem triggerNmi_pendingIrq (s : State) : (s.triggerNmi).pendingIrq = s.pendingIrq := rfl
@[simp] theorem triggerNmi_mem (s : State) : (s.triggerNmi).mem = s.mem := rfl
@[simp] theorem triggerNmi_busInput (s : State) : (s.triggerNmi).busInput = s.busInput := rfl
@[simp] theorem triggerNmi_log (s : State) : (s.triggerNmi).log = s.log := rfl

@[simp] theorem triggerIrq_a (level : Bool) (s : State) : (s.triggerIrq level).a = s.a := rfl
@[simp] theorem triggerIrq_x (level : Bool) (s : State) : (s.triggerIrq level).x = s.x := rfl
@[simp] theorem triggerIrq_y (level : Bool) (s : State) : (s.triggerIrq level).y = s.y := rfl
@[simp] theorem triggerIrq_sp (level : Bool) (s : State) : (s.triggerIrq level).sp = s.sp := rfl
@[simp] theorem triggerIrq_p (level : Bool) (s : State) : (s.triggerIrq level).p = s.p := rfl
@[simp] theorem triggerIrq_pc (level : Bool) (s : State) : (s.triggerIrq level).pc = s.pc := rfl
@[simp] theorem triggerIrq_halted (level : Bool) (s : State) :
    (s.triggerIrq level).halted = s.halted := rfl
@[simp] theorem triggerIrq_pendingNmi (level : Bool) (s : State) :
    (s.triggerIrq level).pendingNmi = s.pendingNmi := rfl
@[simp] theorem triggerIrq_pendingIrq (level : Bool) (s : State) :
    (s.triggerIrq level).pendingIrq = level := rfl
@[simp] theorem triggerIrq_mem (level : Bool) (s : State) : (s.triggerIrq level).mem = s.mem := rfl
@[simp] theorem triggerIrq_busInput (level : Bool) (s : State) :
    (s.triggerIrq level).busInput = s.busInput := rfl
@[simp] theorem triggerIrq_log (level : Bool) (s : State) : (s.triggerIrq level).log = s.log := rfl

/-! ### Bodies -/

@[simp] theorem loadA_a (v : Byte) (s : State) : (loadA v s).a = v := rfl
@[simp] theorem loadA_x (v : Byte) (s : State) : (loadA v s).x = s.x := rfl
@[simp] theorem loadA_y (v : Byte) (s : State) : (loadA v s).y = s.y := rfl
@[simp] theorem loadA_sp (v : Byte) (s : State) : (loadA v s).sp = s.sp := rfl
@[simp] theorem loadA_p (v : Byte) (s : State) : (loadA v s).p = setNz v s.p := rfl
@[simp] theorem loadA_pc (v : Byte) (s : State) : (loadA v s).pc = s.pc := rfl
@[simp] theorem loadA_halted (v : Byte) (s : State) : (loadA v s).halted = s.halted := rfl
@[simp] theorem loadA_pendingNmi (v : Byte) (s : State) :
    (loadA v s).pendingNmi = s.pendingNmi := rfl
@[simp] theorem loadA_pendingIrq (v : Byte) (s : State) :
    (loadA v s).pendingIrq = s.pendingIrq := rfl
@[simp] theorem loadA_mem (v : Byte) (s : State) : (loadA v s).mem = s.mem := rfl
@[simp] theorem loadA_busInput (v : Byte) (s : State) : (loadA v s).busInput = s.busInput := rfl
@[simp] theorem loadA_log (v : Byte) (s : State) : (loadA v s).log = s.log := rfl

@[simp] theorem loadX_a (v : Byte) (s : State) : (loadX v s).a = s.a := rfl
@[simp] theorem loadX_x (v : Byte) (s : State) : (loadX v s).x = v := rfl
@[simp] theorem loadX_y (v : Byte) (s : State) : (loadX v s).y = s.y := rfl
@[simp] theorem loadX_sp (v : Byte) (s : State) : (loadX v s).sp = s.sp := rfl
@[simp] theorem loadX_p (v : Byte) (s : State) : (loadX v s).p = setNz v s.p := rfl
@[simp] theorem loadX_pc (v : Byte) (s : State) : (loadX v s).pc = s.pc := rfl
@[simp] theorem loadX_halted (v : Byte) (s : State) : (loadX v s).halted = s.halted := rfl
@[simp] theorem loadX_pendingNmi (v : Byte) (s : State) :
    (loadX v s).pendingNmi = s.pendingNmi := rfl
@[simp] theorem loadX_pendingIrq (v : Byte) (s : State) :
    (loadX v s).pendingIrq = s.pendingIrq := rfl
@[simp] theorem loadX_mem (v : Byte) (s : State) : (loadX v s).mem = s.mem := rfl
@[simp] theorem loadX_busInput (v : Byte) (s : State) : (loadX v s).busInput = s.busInput := rfl
@[simp] theorem loadX_log (v : Byte) (s : State) : (loadX v s).log = s.log := rfl

@[simp] theorem loadY_a (v : Byte) (s : State) : (loadY v s).a = s.a := rfl
@[simp] theorem loadY_x (v : Byte) (s : State) : (loadY v s).x = s.x := rfl
@[simp] theorem loadY_y (v : Byte) (s : State) : (loadY v s).y = v := rfl
@[simp] theorem loadY_sp (v : Byte) (s : State) : (loadY v s).sp = s.sp := rfl
@[simp] theorem loadY_p (v : Byte) (s : State) : (loadY v s).p = setNz v s.p := rfl
@[simp] theorem loadY_pc (v : Byte) (s : State) : (loadY v s).pc = s.pc := rfl
@[simp] theorem loadY_halted (v : Byte) (s : State) : (loadY v s).halted = s.halted := rfl
@[simp] theorem loadY_pendingNmi (v : Byte) (s : State) :
    (loadY v s).pendingNmi = s.pendingNmi := rfl
@[simp] theorem loadY_pendingIrq (v : Byte) (s : State) :
    (loadY v s).pendingIrq = s.pendingIrq := rfl
@[simp] theorem loadY_mem (v : Byte) (s : State) : (loadY v s).mem = s.mem := rfl
@[simp] theorem loadY_busInput (v : Byte) (s : State) : (loadY v s).busInput = s.busInput := rfl
@[simp] theorem loadY_log (v : Byte) (s : State) : (loadY v s).log = s.log := rfl

@[simp] theorem adc_a (v : Byte) (s : State) : (adc v s).a = (adcAlu s.a v s.p).1 := rfl
@[simp] theorem adc_x (v : Byte) (s : State) : (adc v s).x = s.x := rfl
@[simp] theorem adc_y (v : Byte) (s : State) : (adc v s).y = s.y := rfl
@[simp] theorem adc_sp (v : Byte) (s : State) : (adc v s).sp = s.sp := rfl
@[simp] theorem adc_p (v : Byte) (s : State) : (adc v s).p = (adcAlu s.a v s.p).2 := rfl
@[simp] theorem adc_pc (v : Byte) (s : State) : (adc v s).pc = s.pc := rfl
@[simp] theorem adc_halted (v : Byte) (s : State) : (adc v s).halted = s.halted := rfl
@[simp] theorem adc_pendingNmi (v : Byte) (s : State) : (adc v s).pendingNmi = s.pendingNmi := rfl
@[simp] theorem adc_pendingIrq (v : Byte) (s : State) : (adc v s).pendingIrq = s.pendingIrq := rfl
@[simp] theorem adc_mem (v : Byte) (s : State) : (adc v s).mem = s.mem := rfl
@[simp] theorem adc_busInput (v : Byte) (s : State) : (adc v s).busInput = s.busInput := rfl
@[simp] theorem adc_log (v : Byte) (s : State) : (adc v s).log = s.log := rfl

@[simp] theorem sbc_a (v : Byte) (s : State) : (sbc v s).a = (sbcAlu s.a v s.p).1 := rfl
@[simp] theorem sbc_x (v : Byte) (s : State) : (sbc v s).x = s.x := rfl
@[simp] theorem sbc_y (v : Byte) (s : State) : (sbc v s).y = s.y := rfl
@[simp] theorem sbc_sp (v : Byte) (s : State) : (sbc v s).sp = s.sp := rfl
@[simp] theorem sbc_p (v : Byte) (s : State) : (sbc v s).p = (sbcAlu s.a v s.p).2 := rfl
@[simp] theorem sbc_pc (v : Byte) (s : State) : (sbc v s).pc = s.pc := rfl
@[simp] theorem sbc_halted (v : Byte) (s : State) : (sbc v s).halted = s.halted := rfl
@[simp] theorem sbc_pendingNmi (v : Byte) (s : State) : (sbc v s).pendingNmi = s.pendingNmi := rfl
@[simp] theorem sbc_pendingIrq (v : Byte) (s : State) : (sbc v s).pendingIrq = s.pendingIrq := rfl
@[simp] theorem sbc_mem (v : Byte) (s : State) : (sbc v s).mem = s.mem := rfl
@[simp] theorem sbc_busInput (v : Byte) (s : State) : (sbc v s).busInput = s.busInput := rfl
@[simp] theorem sbc_log (v : Byte) (s : State) : (sbc v s).log = s.log := rfl

@[simp] theorem cmpA_a (v : Byte) (s : State) : (cmpA v s).a = s.a := rfl
@[simp] theorem cmpA_x (v : Byte) (s : State) : (cmpA v s).x = s.x := rfl
@[simp] theorem cmpA_y (v : Byte) (s : State) : (cmpA v s).y = s.y := rfl
@[simp] theorem cmpA_sp (v : Byte) (s : State) : (cmpA v s).sp = s.sp := rfl
@[simp] theorem cmpA_p (v : Byte) (s : State) : (cmpA v s).p = compareFlags s.a v s.p := rfl
@[simp] theorem cmpA_pc (v : Byte) (s : State) : (cmpA v s).pc = s.pc := rfl
@[simp] theorem cmpA_halted (v : Byte) (s : State) : (cmpA v s).halted = s.halted := rfl
@[simp] theorem cmpA_pendingNmi (v : Byte) (s : State) :
    (cmpA v s).pendingNmi = s.pendingNmi := rfl
@[simp] theorem cmpA_pendingIrq (v : Byte) (s : State) :
    (cmpA v s).pendingIrq = s.pendingIrq := rfl
@[simp] theorem cmpA_mem (v : Byte) (s : State) : (cmpA v s).mem = s.mem := rfl
@[simp] theorem cmpA_busInput (v : Byte) (s : State) : (cmpA v s).busInput = s.busInput := rfl
@[simp] theorem cmpA_log (v : Byte) (s : State) : (cmpA v s).log = s.log := rfl

@[simp] theorem cmpX_a (v : Byte) (s : State) : (cmpX v s).a = s.a := rfl
@[simp] theorem cmpX_x (v : Byte) (s : State) : (cmpX v s).x = s.x := rfl
@[simp] theorem cmpX_y (v : Byte) (s : State) : (cmpX v s).y = s.y := rfl
@[simp] theorem cmpX_sp (v : Byte) (s : State) : (cmpX v s).sp = s.sp := rfl
@[simp] theorem cmpX_p (v : Byte) (s : State) : (cmpX v s).p = compareFlags s.x v s.p := rfl
@[simp] theorem cmpX_pc (v : Byte) (s : State) : (cmpX v s).pc = s.pc := rfl
@[simp] theorem cmpX_halted (v : Byte) (s : State) : (cmpX v s).halted = s.halted := rfl
@[simp] theorem cmpX_pendingNmi (v : Byte) (s : State) :
    (cmpX v s).pendingNmi = s.pendingNmi := rfl
@[simp] theorem cmpX_pendingIrq (v : Byte) (s : State) :
    (cmpX v s).pendingIrq = s.pendingIrq := rfl
@[simp] theorem cmpX_mem (v : Byte) (s : State) : (cmpX v s).mem = s.mem := rfl
@[simp] theorem cmpX_busInput (v : Byte) (s : State) : (cmpX v s).busInput = s.busInput := rfl
@[simp] theorem cmpX_log (v : Byte) (s : State) : (cmpX v s).log = s.log := rfl

@[simp] theorem cmpY_a (v : Byte) (s : State) : (cmpY v s).a = s.a := rfl
@[simp] theorem cmpY_x (v : Byte) (s : State) : (cmpY v s).x = s.x := rfl
@[simp] theorem cmpY_y (v : Byte) (s : State) : (cmpY v s).y = s.y := rfl
@[simp] theorem cmpY_sp (v : Byte) (s : State) : (cmpY v s).sp = s.sp := rfl
@[simp] theorem cmpY_p (v : Byte) (s : State) : (cmpY v s).p = compareFlags s.y v s.p := rfl
@[simp] theorem cmpY_pc (v : Byte) (s : State) : (cmpY v s).pc = s.pc := rfl
@[simp] theorem cmpY_halted (v : Byte) (s : State) : (cmpY v s).halted = s.halted := rfl
@[simp] theorem cmpY_pendingNmi (v : Byte) (s : State) :
    (cmpY v s).pendingNmi = s.pendingNmi := rfl
@[simp] theorem cmpY_pendingIrq (v : Byte) (s : State) :
    (cmpY v s).pendingIrq = s.pendingIrq := rfl
@[simp] theorem cmpY_mem (v : Byte) (s : State) : (cmpY v s).mem = s.mem := rfl
@[simp] theorem cmpY_busInput (v : Byte) (s : State) : (cmpY v s).busInput = s.busInput := rfl
@[simp] theorem cmpY_log (v : Byte) (s : State) : (cmpY v s).log = s.log := rfl

@[simp] theorem bitTest_a (v : Byte) (s : State) : (bitTest v s).a = s.a := rfl
@[simp] theorem bitTest_x (v : Byte) (s : State) : (bitTest v s).x = s.x := rfl
@[simp] theorem bitTest_y (v : Byte) (s : State) : (bitTest v s).y = s.y := rfl
@[simp] theorem bitTest_sp (v : Byte) (s : State) : (bitTest v s).sp = s.sp := rfl
@[simp] theorem bitTest_p (v : Byte) (s : State) : (bitTest v s).p = bitFlags s.a v s.p := rfl
@[simp] theorem bitTest_pc (v : Byte) (s : State) : (bitTest v s).pc = s.pc := rfl
@[simp] theorem bitTest_halted (v : Byte) (s : State) : (bitTest v s).halted = s.halted := rfl
@[simp] theorem bitTest_pendingNmi (v : Byte) (s : State) :
    (bitTest v s).pendingNmi = s.pendingNmi := rfl
@[simp] theorem bitTest_pendingIrq (v : Byte) (s : State) :
    (bitTest v s).pendingIrq = s.pendingIrq := rfl
@[simp] theorem bitTest_mem (v : Byte) (s : State) : (bitTest v s).mem = s.mem := rfl
@[simp] theorem bitTest_busInput (v : Byte) (s : State) :
    (bitTest v s).busInput = s.busInput := rfl
@[simp] theorem bitTest_log (v : Byte) (s : State) : (bitTest v s).log = s.log := rfl

end Sys2Proof.Machine
end

