-- ==== Sys2Proof/Laws/Ops.lean ====
section
/-! SUPPORT. The shared operations of Machine/Ops.lean: addresses as numbers, what a read answers, what a
write leaves alone, the stack, and reset. -/

namespace Sys2Proof.Machine

/-! ### Addresses as numbers -/

theorem addrOf_toNat (k : Nat) : (addrOf k).toNat = k % 65536 := by
  simp [addrOf]

theorem zext16_eq (v : Byte) : zext16 v = addrOf v.toNat := by
  apply BitVec.eq_of_toNat_eq
  simp [zext16, addrOf]

theorem zext16_add (v i : Byte) : zext16 (v + i) = addrOf ((v.toNat + i.toNat) % 256) := by
  simp [zext16_eq, BitVec.toNat_add]

theorem word_toNat (hi lo : Byte) : (word hi lo).toNat = 256 * hi.toNat + lo.toNat := by
  have := lo.isLt
  simp only [word, BitVec.toNat_append]
  rw [← Nat.shiftLeft_add_eq_or_of_lt this, Nat.shiftLeft_eq]
  omega

theorem word_eq (hi lo : Byte) : word hi lo = addrOf (256 * hi.toNat + lo.toNat) := by
  have := hi.isLt
  have := lo.isLt
  apply BitVec.eq_of_toNat_eq
  rw [word_toNat, addrOf_toNat]
  omega

theorem word_add (hi lo i : Byte) :
    word hi lo + zext16 i = addrOf ((256 * hi.toNat + lo.toNat + i.toNat) % 65536) := by
  have := i.isLt
  apply BitVec.eq_of_toNat_eq
  rw [BitVec.toNat_add, word_toNat, zext16_eq, addrOf_toNat, addrOf_toNat]
  omega

theorem word_unfixed (hi lo i : Byte) : word hi (lo + i) = unfixed hi lo i := by
  rw [word_eq, unfixed, BitVec.toNat_add]

theorem hiByte_toNat (v : Word) : (hiByte v).toNat = v.toNat / 256 := by
  have := v.isLt
  simp [hiByte, Nat.shiftRight_eq_div_pow]
  omega

theorem loByte_toNat (v : Word) : (loByte v).toNat = v.toNat % 256 := by
  simp [loByte]

/-- A 16-bit value is its two bytes. -/
@[simp] theorem word_hi_lo (v : Word) : word (hiByte v) (loByte v) = v := by
  apply BitVec.eq_of_toNat_eq
  rw [word_toNat, hiByte_toNat, loByte_toNat]
  omega

theorem stackAddr_eq (sp : Byte) : stackAddr sp = stackSlot sp := by
  have h : ∀ b : Byte, stackAddr b = stackSlot b := by decide +kernel
  exact h sp

theorem stackSlot_toNat (sp : Byte) : (stackSlot sp).toNat = 256 + sp.toNat := by
  have := sp.isLt
  rw [stackSlot, addrOf_toNat]
  omega

theorem stackSlot_inj {p q : Byte} (h : stackSlot p = stackSlot q) : p = q := by
  have := congrArg BitVec.toNat h
  rw [stackSlot_toNat, stackSlot_toNat] at this
  exact BitVec.eq_of_toNat_eq (by omega)

/-- The stack page and the vectors do not meet. -/
theorem stackSlot_ne_of_large {a : Word} (ha : 512 ≤ a.toNat) (sp : Byte) : a ≠ stackSlot sp := by
  have := sp.isLt
  intro h
  rw [h, stackSlot_toNat] at ha
  omega

/-! ### What a read answers -/

theorem answerOr_plain {s : State} (h : PlainBus s) (k : Nat) (held : Byte) :
    s.answerOr k held = held := by
  have h : s.busInput = [] := h
  simp [State.answerOr, h]

theorem answerAt_plain {s : State} (h : PlainBus s) (k : Nat) (addr : Word) :
    s.answerAt k addr = s.byteAt addr :=
  answerOr_plain h k _

theorem busAnswer_eq (addr : Word) (s : State) : busAnswer addr s = s.answerAt 0 addr := by
  cases h : s.busInput with
  | nil => simp [busAnswer, State.answerAt, State.answerOr, h]
  | cons o rest => cases o <;> simp [busAnswer, State.answerAt, State.answerOr, h]

/-- The answers to come of a state whose outside world has `j` fewer answers than `s`. -/
theorem answerOr_drop {s t : State} {j : Nat} (h : t.busInput = s.busInput.drop j) (k : Nat)
    (held : Byte) : t.answerOr k held = s.answerOr (j + k) held := by
  simp [State.answerOr, h]

theorem answerAt_drop {s t : State} {j : Nat} (h : t.busInput = s.busInput.drop j)
    (hm : t.mem = s.mem) (k : Nat) (addr : Word) : t.answerAt k addr = s.answerAt (j + k) addr := by
  simp [State.answerAt, State.byteAt, hm, answerOr_drop h]

@[simp] theorem answerAt_noteRead (a b : Word) (v : Byte) (s : State) (k : Nat) :
    (noteRead a v s).answerAt k b = s.answerAt (k + 1) b := by
  rw [answerAt_drop (s := s) (t := noteRead a v s) (j := 1) (by simp) rfl, Nat.add_comm 1 k]

@[simp] theorem answerAt_busRead (a b : Word) (s : State) (k : Nat) :
    (busRead a s).2.answerAt k b = s.answerAt (k + 1) b := answerAt_noteRead a b _ s k

@[simp] theorem answerAt_dummyRead (a b : Word) (s : State) (k : Nat) :
    (dummyRead a s).answerAt k b = s.answerAt (k + 1) b := answerAt_noteRead a b _ s k

@[simp] theorem answerAt_fetchOperand (v : Byte) (b : Word) (s : State) (k : Nat) :
    (fetchOperand v s).answerAt k b = s.answerAt (k + 1) b := answerAt_noteRead s.pc b v s k

@[simp] theorem answerAt_fetch8 (b : Word) (s : State) (k : Nat) :
    (fetch8 s).2.answerAt k b = s.answerAt (k + 1) b :=
  answerAt_noteRead s.pc b (busAnswer s.pc s) s k

@[simp] theorem answerAt_pull (b : Word) (s : State) (k : Nat) :
    (pull s).2.answerAt k b = s.answerAt (k + 1) b := by
  rw [answerAt_drop (s := s) (t := (pull s).2) (j := 1) (by simp) rfl, Nat.add_comm 1 k]

/-! ### What a write leaves alone -/

@[simp] theorem byteAt_busWrite (a b : Word) (v : Byte) (s : State) :
    (busWrite a v s).byteAt b = if b = a then v else s.byteAt b := by
  simp only [State.byteAt, busWrite_mem, Memory.read_write]
  by_cases h : b = a
  · simp [h]
  · have : b.toNat ≠ a.toNat := fun e => h (BitVec.eq_of_toNat_eq e)
    simp [h, this]

@[simp] theorem byteAt_push (b : Word) (v : Byte) (s : State) :
    (push v s).byteAt b = if b = stackSlot s.sp then v else s.byteAt b := by
  have := byteAt_busWrite (stackAddr s.sp) b v s
  rw [stackAddr_eq] at this
  simpa [State.byteAt, push, stackAddr_eq] using this

@[simp] theorem byteAt_dummyRead (a b : Word) (s : State) :
    (dummyRead a s).byteAt b = s.byteAt b := rfl

@[simp] theorem byteAt_fetchOperand (v : Byte) (b : Word) (s : State) :
    (fetchOperand v s).byteAt b = s.byteAt b := rfl

@[simp] theorem byteAt_fetch8 (b : Word) (s : State) : (fetch8 s).2.byteAt b = s.byteAt b := rfl

@[simp] theorem byteAt_busRead (a b : Word) (s : State) :
    (busRead a s).2.byteAt b = s.byteAt b := rfl

/-! ### Reset -/

/-- `State.reset` is the machine after one `reset()` from `State.powerOn` (R550, R554). -/
theorem reset_eq_hostReset : State.reset = State.powerOn.hostReset := by decide

end Sys2Proof.Machine
end

