-- ==== Sys2Proof/Laws/Operands.lean ====
section
/-! SUPPORT. The resolver and the executors, each said once: the effective address, the accesses made, and
what the state is afterwards. -/

namespace Sys2Proof.Machine

/-! ### A run of reads -/

/-- The state after the reads of `events`, with PC moved on by `n`. -/
def afterReads (events : List BusEvent) (n : Nat) (s : State) : State :=
  { s with
    pc := s.pc + addrOf n
    busInput := s.busInput.drop events.length
    log := s.log ++ events }

theorem addrOf_add (j k : Nat) : addrOf j + addrOf k = addrOf (j + k) := by
  simp [addrOf, BitVec.ofNat_add]

@[simp] theorem addrOf_zero : addrOf 0 = 0#16 := rfl

theorem addrOf_one : addrOf 1 = 1#16 := rfl

theorem addrOf_two : addrOf 2 = 2#16 := rfl

/-- Two runs of reads are one. -/
@[simp] theorem afterReads_afterReads (es fs : List BusEvent) (j k : Nat) (s : State) :
    afterReads fs k (afterReads es j s) = afterReads (es ++ fs) (j + k) s := by
  simp [afterReads, ← addrOf_add, BitVec.add_assoc]

@[simp] theorem answerAt_afterReads (es : List BusEvent) (n : Nat) (s : State) (k : Nat) (a : Word) :
    (afterReads es n s).answerAt k a = s.answerAt (es.length + k) a :=
  answerAt_drop (s := s) (t := afterReads es n s) rfl rfl k a

@[simp] theorem rdAt_afterReads (es : List BusEvent) (n : Nat) (s : State) (k : Nat) (a : Word) :
    rdAt (afterReads es n s) k a = rdAt s (es.length + k) a := by
  simp [rdAt]

theorem fetchOperand_eq (v : Byte) (s : State) : fetchOperand v s = afterReads [rd s.pc v] 1 s := by
  simp [fetchOperand, noteRead, afterReads, rd, addrOf_one]

theorem dummyRead_eq (a : Word) (s : State) : dummyRead a s = afterReads [rdAt s 0 a] 0 s := by
  simp [dummyRead, busRead, noteRead, afterReads, rdAt, rd, busAnswer_eq]

theorem busRead_eq (a : Word) (s : State) :
    busRead a s = (s.answerAt 0 a, afterReads [rdAt s 0 a] 0 s) :=
  Prod.ext (busAnswer_eq a s) (dummyRead_eq a s)

theorem fetch8_eq (s : State) :
    fetch8 s = (s.answerAt 0 s.pc, afterReads [rdAt s 0 s.pc] 1 s) := by
  simp [fetch8, busRead_eq, afterReads, addrOf_one]

/-- Reads leave every field alone but PC, the answers to come and the log. -/
theorem afterReads_fields (es : List BusEvent) (n : Nat) (s : State) :
    (afterReads es n s).a = s.a ∧ (afterReads es n s).x = s.x ∧ (afterReads es n s).y = s.y ∧
      (afterReads es n s).sp = s.sp ∧ (afterReads es n s).p = s.p ∧
      (afterReads es n s).halted = s.halted ∧ (afterReads es n s).pendingNmi = s.pendingNmi ∧
      (afterReads es n s).pendingIrq = s.pendingIrq ∧ (afterReads es n s).mem = s.mem := by
  simp [afterReads]

@[simp] theorem afterReads_a (es n s) : (afterReads es n s).a = s.a := rfl
@[simp] theorem afterReads_x (es n s) : (afterReads es n s).x = s.x := rfl
@[simp] theorem afterReads_y (es n s) : (afterReads es n s).y = s.y := rfl
@[simp] theorem afterReads_sp (es n s) : (afterReads es n s).sp = s.sp := rfl
@[simp] theorem afterReads_p (es n s) : (afterReads es n s).p = s.p := rfl
@[simp] theorem afterReads_pc (es n s) : (afterReads es n s).pc = s.pc + addrOf n := rfl
@[simp] theorem afterReads_halted (es n s) : (afterReads es n s).halted = s.halted := rfl
@[simp] theorem afterReads_pendingNmi (es n s) : (afterReads es n s).pendingNmi = s.pendingNmi := rfl
@[simp] theorem afterReads_pendingIrq (es n s) : (afterReads es n s).pendingIrq = s.pendingIrq := rfl
@[simp] theorem afterReads_mem (es n s) : (afterReads es n s).mem = s.mem := rfl
@[simp] theorem afterReads_busInput (es n s) :
    (afterReads es n s).busInput = s.busInput.drop es.length := rfl
@[simp] theorem afterReads_log (es n s) : (afterReads es n s).log = s.log ++ es := rfl
@[simp] theorem byteAt_afterReads (es : List BusEvent) (n : Nat) (s : State) (a : Word) :
    (afterReads es n s).byteAt a = s.byteAt a := rfl

/-! ### The resolver -/

theorem crosses_eq (ll i : Byte) : decide (ll.toNat + i.toNat > 0xFF) = crosses ll i := by
  simp [crosses, Nat.lt_iff_add_one_le]

theorem resolveIndexed_ea (hh ll i : Byte) (d : Discipline) (s : State) :
    (resolveIndexed hh ll i d s).1.ea =
      addrOf ((256 * hh.toNat + ll.toNat + i.toNat) % 65536) := word_add hh ll i

/-- The indexed modes make the dummy read of R135 and R136 and nothing else. -/
theorem resolveIndexed_state (hh ll i : Byte) (d : Discipline) (s : State) :
    (resolveIndexed hh ll i d s).2 = afterReads (indexDummy s 0 hh ll i d) 0 s := by
  simp only [resolveIndexed, crosses_eq, word_unfixed, indexDummy, dummyRead_eq]
  split
  · rfl
  · simp [afterReads]

@[simp] theorem indexDummy_afterReads (es : List BusEvent) (n : Nat) (s : State) (k : Nat)
    (hh ll i : Byte) (d : Discipline) :
    indexDummy (afterReads es n s) k hh ll i d = indexDummy s (es.length + k) hh ll i d := by
  simp [indexDummy]

/-- The resolver's effective address is the one of R132. -/
theorem resolve_ea (m : MemOperand) (d : Discipline) (s : State) :
    (resolve m d s).1.ea = effAddr m s := by
  cases m with
  | zpg nn => exact zext16_eq nn
  | zpx nn => exact zext16_add nn s.x
  | zpy nn => exact zext16_add nn s.y
  | abs ll hh => exact word_eq hh ll
  | abx ll hh => exact word_add hh ll s.x
  | aby ll hh => exact word_add hh ll s.y
  | izx nn =>
    simp [resolve, plainAddr, effAddr, eaNat, busRead_eq, dummyRead_eq, fetchOperand_eq,
      zext16_add, word_eq]
  | izy nn =>
    simp [resolve, resolveIndexed_ea, effAddr, eaNat, busRead_eq, fetchOperand_eq, zext16_eq]

/-- The resolver reads the operand bytes, the pointer and the dummies of R142, moves PC past the operand
bytes, and changes nothing else. -/
theorem resolve_state (m : MemOperand) (d : Discipline) (s : State) :
    (resolve m d s).2 = afterReads (modeAccesses m d s) (memSize m) s := by
  cases m <;>
    simp [resolve, modeAccesses, memSize, fetchOperand_eq, dummyRead_eq, busRead_eq,
      resolveIndexed_state, zext16_eq, BitVec.toNat_add, addrOf_one, rdAt, rd]

/-- The base's high byte and the crossing of the indexed modes (R134, R141). -/
theorem resolve_abx_base (ll hh : Byte) (d : Discipline) (s : State) :
    (resolve (.abx ll hh) d s).1.baseHi = hh ∧
      (resolve (.abx ll hh) d s).1.cross = crosses ll s.x :=
  ⟨rfl, crosses_eq ll s.x⟩

theorem resolve_aby_base (ll hh : Byte) (d : Discipline) (s : State) :
    (resolve (.aby ll hh) d s).1.baseHi = hh ∧
      (resolve (.aby ll hh) d s).1.cross = crosses ll s.y :=
  ⟨rfl, crosses_eq ll s.y⟩

theorem resolve_izy_base (nn : Byte) (d : Discipline) (s : State) :
    (resolve (.izy nn) d s).1.baseHi = s.answerAt 2 (addrOf ((nn.toNat + 1) % 256)) ∧
      (resolve (.izy nn) d s).1.cross =
        crosses (s.answerAt 1 (addrOf nn.toNat)) s.y := by
  constructor
  · simp [resolve, resolveIndexed, busRead_eq, fetchOperand_eq, zext16_eq, BitVec.toNat_add]
  · simp [resolve, resolveIndexed, busRead_eq, fetchOperand_eq, zext16_eq, crosses_eq]

/-! ### The executors -/

/-- The accesses of a mode are reads. -/
@[simp] theorem modeAccesses_reads (m : MemOperand) (d : Discipline) (s : State) :
    (modeAccesses m d s).filter (fun e => e.dir == .read) = modeAccesses m d s := by
  rw [List.filter_eq_self]
  cases m <;> simp only [modeAccesses, indexDummy] <;> try split
  all_goals simp [rd, rdAt]

/-- The accesses of an operand read are reads. -/
@[simp] theorem operandAccesses_reads (o : Operand) (s : State) :
    (operandAccesses o s).filter (fun e => e.dir == .read) = operandAccesses o s := by
  cases o <;> simp [operandAccesses, rd]

/-- Reading an operand: its byte, and the accesses of its mode with the read at the effective address. -/
theorem readOperand_eq (o : Operand) (s : State) :
    readOperand o s =
      (operandByte o s, afterReads (operandAccesses o s) (operandSize o) s) := by
  cases o with
  | imm nn => simp [readOperand, operandByte, operandAccesses, operandSize, fetchOperand_eq]
  | mem m =>
    simp [readOperand, operandByte, operandAccesses, operandSize, resolve_ea, resolve_state,
      busRead_eq, memByte, rdAt]

theorem executeRead_eq (o : Operand) (body : Byte → State → State) (s : State) :
    executeRead o body s =
      body (operandByte o s) (afterReads (operandAccesses o s) (operandSize o) s) := by
  simp [executeRead, readOperand_eq]

theorem executeWrite_eq (m : MemOperand) (body : State → Byte) (s : State) :
    executeWrite m body s =
      let s1 := afterReads (modeAccesses m .write s) (memSize m) s
      busWrite (effAddr m s) (body s1) s1 := by
  simp [executeWrite, resolve_ea, resolve_state]

/-- A read-modify-write instruction reads, writes the unmodified byte, and writes the result (R139). -/
theorem executeRmw_eq (m : MemOperand) (body : Byte → State → Byte × State) (s : State) :
    executeRmw m body s =
      let v := memByte m .rmw s
      let s1 := afterReads (modeAccesses m .rmw s ++ [rd (effAddr m s) v]) (memSize m) s
      let b := body v (busWrite (effAddr m s) v s1)
      busWrite (effAddr m s) b.1 b.2 := by
  simp [executeRmw, resolve_ea, resolve_state, busRead_eq, memByte, rdAt]

theorem executeImp_eq (body : State → State) (s : State) :
    executeImp body s = body (afterReads [rdAt s 0 s.pc] 0 s) := by
  simp [executeImp, dummyRead_eq]

theorem executeAcc_eq (f : Byte → Byte → Byte × Byte) (s : State) :
    executeAcc f s =
      { afterReads [rdAt s 0 s.pc] 0 s with a := (f s.a s.p).1, p := (f s.a s.p).2 } := by
  simp [executeAcc, dummyRead_eq]

end Sys2Proof.Machine
end

