-- ==== Sys2Proof/Laws/Stack.lean ====
section
/-! SUPPORT. The stack, the vectors, entering an interrupt and returning from one, each said once: the value
it gives, the accesses it makes, and the fields it changes. -/

namespace Sys2Proof.Machine

theorem hiByte_eq (v : Word) : hiByte v = highOf v := by
  apply BitVec.eq_of_toNat_eq
  have := v.isLt
  simp only [hiByte_toNat, highOf, BitVec.toNat_ofNat]
  omega

theorem loByte_eq (v : Word) : loByte v = lowOf v := by
  apply BitVec.eq_of_toNat_eq
  simp [loByte_toNat, lowOf]

theorem word_eq_wordOf (hi lo : Byte) : word hi lo = wordOf hi lo := word_eq hi lo

/-- A 16-bit value is its two bytes, as the statements write them. -/
@[simp] theorem wordOf_high_low (v : Word) : wordOf (highOf v) (lowOf v) = v := by
  rw [← hiByte_eq, ← loByte_eq, ← word_eq_wordOf, word_hi_lo]

/-- What the bus answers does not depend on the registers. -/
theorem answerAt_congr {s t : State} (hb : t.busInput = s.busInput) (hm : t.mem = s.mem) (k : Nat)
    (addr : Word) : t.answerAt k addr = s.answerAt k addr := by
  simp [State.answerAt, State.answerOr, State.byteAt, hb, hm]

/-! ### Pushing -/

/-- A push writes at the stack pointer and moves it down (R58). -/
theorem push_eq (v : Byte) (s : State) :
    push v s =
      { s with
        sp := s.sp - 1
        mem := Memory.write s.mem (stackSlot s.sp).toNat v
        log := s.log ++ [wr (stackSlot s.sp) v] } := by
  simp [push, busWrite, stackAddr_eq, wr]

theorem pushWord_eq (v : Word) (s : State) :
    pushWord v s =
      { s with
        sp := s.sp - 2
        mem := Memory.write (Memory.write s.mem (stackSlot s.sp).toNat (highOf v))
          (stackSlot (s.sp - 1)).toNat (lowOf v)
        log := s.log ++ [wr (stackSlot s.sp) (highOf v), wr (stackSlot (s.sp - 1)) (lowOf v)] } := by
  have : s.sp - 1 - 1 = s.sp - 2 := by rw [BitVec.sub_sub]; rfl
  simp only [pushWord, push_eq, hiByte_eq, loByte_eq, this, List.append_assoc, List.cons_append,
    List.nil_append]

/-- The two places of a pushed word differ. -/
theorem stackSlot_sub_ne (sp k : Byte) (hk : k ≠ 0) : stackSlot (sp - k) ≠ stackSlot sp := by
  intro h
  exact hk (by simpa using stackSlot_inj h)

/-! ### Pulling -/

/-- A pull moves the stack pointer up and reads there (R59). -/
theorem pull_eq (s : State) :
    pull s =
      (s.answerAt 0 (stackSlot (s.sp + 1)),
        { afterReads [rdAt s 0 (stackSlot (s.sp + 1))] 0 s with sp := s.sp + 1 }) := by
  have h (a : Word) : State.answerAt { s with sp := s.sp + 1 } 0 a = s.answerAt 0 a :=
    answerAt_congr rfl rfl 0 a
  simp only [pull, stackAddr_eq, busRead_eq, rdAt, h]
  rfl

theorem pullWord_eq (s : State) :
    pullWord s =
      (wordOf (s.answerAt 1 (stackSlot (s.sp + 2))) (s.answerAt 0 (stackSlot (s.sp + 1))),
        { afterReads [rdAt s 0 (stackSlot (s.sp + 1)), rdAt s 1 (stackSlot (s.sp + 2))] 0 s with
          sp := s.sp + 2 }) := by
  have h2 : s.sp + 1 + 1 = s.sp + 2 := by rw [BitVec.add_assoc]; rfl
  have h (es : List BusEvent) (sp : Byte) (k : Nat) (a : Word) :
      State.answerAt { afterReads es 0 s with sp := sp } k a = s.answerAt (es.length + k) a := by
    rw [← answerAt_afterReads es 0 s k a]
    exact answerAt_congr rfl rfl k a
  simp only [pullWord, pull_eq, rdAt, h, h2, word_eq_wordOf]
  simp [afterReads]

/-! ### Vectors -/

/-- A word at a vector is read low byte first (R9). -/
theorem busReadWord_eq (addr : Word) (s : State) :
    busReadWord addr s =
      (wordOf (s.answerAt 1 (addr + 1)) (s.answerAt 0 addr),
        afterReads [rdAt s 0 addr, rdAt s 1 (addr + 1)] 0 s) := by
  simp [busReadWord, busRead_eq, word_eq_wordOf]

/-- What the bus answers outside the stack page does not depend on what was pushed. -/
theorem answerAt_of_mem {s t : State} (hb : t.busInput = s.busInput) {addr : Word}
    (hm : t.byteAt addr = s.byteAt addr) (k : Nat) : t.answerAt k addr = s.answerAt k addr := by
  simp [State.answerAt, State.answerOr, hb, hm]

/-- A write to the stack page leaves the bytes above it alone. -/
theorem read_write_stack (m : Memory) (sp v : Byte) {a : Word} (ha : 512 ≤ a.toNat) :
    Memory.read (Memory.write m (stackSlot sp).toNat v) a.toNat = Memory.read m a.toNat := by
  have := sp.isLt
  exact Memory.read_write_other m v (by rw [stackSlot_toNat]; omega)

/-- Entering a handler through a vector outside the stack page: PC high, PC low and P are pushed, I is set,
PC is the word at the vector, and nothing else changes (R507, R313). -/
theorem enterInterrupt_eq (vector : Word) (b : Bool) (s : State) (h0 : 512 ≤ vector.toNat)
    (h1 : 512 ≤ (vector + 1).toNat) :
    enterInterrupt vector b s =
      { s with
        pc := wordOf (s.answerAt 1 (vector + 1)) (s.answerAt 0 vector)
        sp := s.sp - 3
        p := setFlag .i true s.p
        mem := Memory.write (Memory.write (Memory.write s.mem (stackSlot s.sp).toNat (highOf s.pc))
          (stackSlot (s.sp - 1)).toNat (lowOf s.pc)) (stackSlot (s.sp - 2)).toNat (pushRepr b s.p)
        busInput := s.busInput.drop 2
        log := s.log ++ [wr (stackSlot s.sp) (highOf s.pc), wr (stackSlot (s.sp - 1)) (lowOf s.pc),
          wr (stackSlot (s.sp - 2)) (pushRepr b s.p), rdAt s 0 vector, rdAt s 1 (vector + 1)] } := by
  have h3 : s.sp - 2 - 1 = s.sp - 3 := by rw [BitVec.sub_sub]; rfl
  have h (u v w p sp : Byte) (log : List BusEvent) (k : Nat) {a : Word} (ha : 512 ≤ a.toNat) :
      State.answerAt { s with
        sp := sp, p := p, log := log
        mem := Memory.write (Memory.write (Memory.write s.mem (stackSlot s.sp).toNat u)
          (stackSlot (s.sp - 1)).toNat v) (stackSlot (s.sp - 2)).toNat w } k a = s.answerAt k a := by
    refine answerAt_of_mem (s := s) ?_ ?_ k
    · rfl
    · simp only [State.byteAt, read_write_stack _ _ _ ha]
  simp only [enterInterrupt, push_eq, pushWord_eq, busReadWord_eq, rdAt, h3, h _ _ _ _ _ _ _ h0,
    h _ _ _ _ _ _ _ h1]
  simp [afterReads]

/-- RTI's pulls: P but for B and U, then PC (R314, R509). -/
theorem returnFromInterrupt_eq (s : State) :
    returnFromInterrupt s =
      { s with
        pc := wordOf (s.answerAt 2 (stackSlot (s.sp + 3))) (s.answerAt 1 (stackSlot (s.sp + 2)))
        sp := s.sp + 3
        p := pullRepr (s.answerAt 0 (stackSlot (s.sp + 1))) s.p
        busInput := s.busInput.drop 3
        log := s.log ++ [rdAt s 0 (stackSlot (s.sp + 1)), rdAt s 1 (stackSlot (s.sp + 2)),
          rdAt s 2 (stackSlot (s.sp + 3))] } := by
  have h2 : s.sp + 1 + 1 = s.sp + 2 := by rw [BitVec.add_assoc]; rfl
  have h3 : s.sp + 1 + 2 = s.sp + 3 := by rw [BitVec.add_assoc]; rfl
  have h (es : List BusEvent) (sp p : Byte) (k : Nat) (a : Word) :
      State.answerAt { afterReads es 0 s with sp := sp, p := p } k a = s.answerAt (es.length + k) a := by
    rw [← answerAt_afterReads es 0 s k a]
    exact answerAt_congr rfl rfl k a
  simp only [returnFromInterrupt, pull_eq, pullWord_eq, rdAt, h, h2, h3]
  simp [afterReads]

end Sys2Proof.Machine
end

