-- ==== Sys2Proof/Laws/Control.lean ====
section
/-! SUPPORT. A branch, said once: where it goes, the accesses it makes, and that nothing else moves. -/

namespace Sys2Proof.Machine

/-- The address after the displacement plus the sign-extended displacement is `branchTarget`. -/
theorem add_sext16_eq (next : Word) (dd : Byte) : next + sext16 dd = branchTarget next dd := by
  have h : ∀ d : Byte,
      (sext16 d).toNat = if d.toNat ≥ 128 then 65280 + d.toNat else d.toNat := by decide +kernel
  have := dd.isLt
  apply BitVec.eq_of_toNat_eq
  rw [BitVec.toNat_add, h, branchTarget, addrOf_toNat]
  split <;> omega

/-- Two addresses lie in different pages when their high bytes differ. -/
theorem hiByte_bne (v w : Word) :
    (hiByte v != hiByte w) = decide (¬ v.toNat / 256 = w.toNat / 256) := by
  rw [Bool.eq_iff_iff]
  simp [← BitVec.toNat_inj, hiByte_toNat]

/-- A branch makes the accesses of R300 and moves PC; nothing else changes. -/
theorem branch_eq (f : Flag) (polarity : Bool) (dd : Byte) (s : State) :
    branch f polarity dd s =
      { afterReads (branchAccesses f polarity dd s) 0 s with
        pc := if getFlag f s.p = polarity then branchTarget (s.pc + 1) dd else s.pc + 1 } := by
  have hw (v w : Word) : word (hiByte v) (loByte w) = wordOf (highOf v) (lowOf w) := by
    rw [word_eq_wordOf, hiByte_eq, loByte_eq]
  have h1 : addrOf 1 = (1 : Word) := rfl
  simp only [branch, branchAccesses, fetchOperand_eq, afterReads_pc, afterReads_p, h1,
    add_sext16_eq, hiByte_bne, hw, dummyRead_eq, rdAt_afterReads, afterReads_afterReads]
  by_cases h : getFlag f s.p = polarity
  · by_cases hp : (branchTarget (s.pc + 1) dd).toNat / 256 = (s.pc + 1).toNat / 256 <;>
      simp only [h, hp, not_true_eq_false, not_false_eq_true, decide_false, decide_true, ne_eq,
        if_true, if_false, beq_self_eq_true, Bool.false_eq_true] <;>
      rfl
  · simp [h, afterReads, addrOf_one]

/-- The count of R560 is the opcode fetch and the accesses of R300. -/
theorem branchCount_eq (f : Flag) (polarity : Bool) (dd : Byte) (s : State) :
    branchCount f polarity dd s = (branchAccesses f polarity dd s).length + 1 := by
  simp only [branchCount, branchAccesses]
  repeat' split
  all_goals rfl

/-- Every branch is one call of `branch`. -/
theorem exec_branchForms (dd : Byte) (s : State) :
    ∀ b ∈ branchForms dd, exec b.1 s = .next (branch b.2.1 b.2.2 dd s) := by
  simp only [branchForms, List.forall_mem_cons, List.not_mem_nil, false_imp_iff, implies_true, and_true]
  exact ⟨rfl, rfl, rfl, rfl, rfl, rfl, rfl, rfl⟩

end Sys2Proof.Machine
end

