-- ==== Sys2Proof/Laws/Decode.lean ====
section
/-! SUPPORT. The decoder, said once: the instruction an opcode byte selects has a mode that only the opcode fixes,
and its encoding is the opcode byte and the operand bytes that mode takes. -/

namespace Sys2Proof

/-- The mode of an opcode (R71: the opcode byte alone determines the length). -/
def opcodeMode (op : Byte) : Mode := (decodeBytes op 0#8 0#8).mode

theorem opcodeRow0_spec (c : Nat) (hc : c < 16) (b1 b2 : Byte) :
    (opcodeRow0 c b1 b2).mode = (opcodeRow0 c 0#8 0#8).mode ∧
      encode (opcodeRow0 c b1 b2) =
        [BitVec.ofNat 8 (16 * 0 + c), b1, b2].take (1 + (opcodeRow0 c 0#8 0#8).mode.operandBytes) := by
  interval_cases c <;> exact ⟨rfl, rfl⟩

theorem opcodeRow1_spec (c : Nat) (hc : c < 16) (b1 b2 : Byte) :
    (opcodeRow1 c b1 b2).mode = (opcodeRow1 c 0#8 0#8).mode ∧
      encode (opcodeRow1 c b1 b2) =
        [BitVec.ofNat 8 (16 * 1 + c), b1, b2].take (1 + (opcodeRow1 c 0#8 0#8).mode.operandBytes) := by
  interval_cases c <;> exact ⟨rfl, rfl⟩

theorem opcodeRow2_spec (c : Nat) (hc : c < 16) (b1 b2 : Byte) :
    (opcodeRow2 c b1 b2).mode = (opcodeRow2 c 0#8 0#8).mode ∧
      encode (opcodeRow2 c b1 b2) =
        [BitVec.ofNat 8 (16 * 2 + c), b1, b2].take (1 + (opcodeRow2 c 0#8 0#8).mode.operandBytes) := by
  interval_cases c <;> exact ⟨rfl, rfl⟩

theorem opcodeRow3_spec (c : Nat) (hc : c < 16) (b1 b2 : Byte) :
    (opcodeRow3 c b1 b2).mode = (opcodeRow3 c 0#8 0#8).mode ∧
      encode (opcodeRow3 c b1 b2) =
        [BitVec.ofNat 8 (16 * 3 + c), b1, b2].take (1 + (opcodeRow3 c 0#8 0#8).mode.operandBytes) := by
  interval_cases c <;> exact ⟨rfl, rfl⟩

theorem opcodeRow4_spec (c : Nat) (hc : c < 16) (b1 b2 : Byte) :
    (opcodeRow4 c b1 b2).mode = (opcodeRow4 c 0#8 0#8).mode ∧
      encode (opcodeRow4 c b1 b2) =
        [BitVec.ofNat 8 (16 * 4 + c), b1, b2].take (1 + (opcodeRow4 c 0#8 0#8).mode.operandBytes) := by
  interval_cases c <;> exact ⟨rfl, rfl⟩

theorem opcodeRow5_spec (c : Nat) (hc : c < 16) (b1 b2 : Byte) :
    (opcodeRow5 c b1 b2).mode = (opcodeRow5 c 0#8 0#8).mode ∧
      encode (opcodeRow5 c b1 b2) =
        [BitVec.ofNat 8 (16 * 5 + c), b1, b2].take (1 + (opcodeRow5 c 0#8 0#8).mode.operandBytes) := by
  interval_cases c <;> exact ⟨rfl, rfl⟩

theorem opcodeRow6_spec (c : Nat) (hc : c < 16) (b1 b2 : Byte) :
    (opcodeRow6 c b1 b2).mode = (opcodeRow6 c 0#8 0#8).mode ∧
      encode (opcodeRow6 c b1 b2) =
        [BitVec.ofNat 8 (16 * 6 + c), b1, b2].take (1 + (opcodeRow6 c 0#8 0#8).mode.operandBytes) := by
  interval_cases c <;> exact ⟨rfl, rfl⟩

theorem opcodeRow7_spec (c : Nat) (hc : c < 16) (b1 b2 : Byte) :
    (opcodeRow7 c b1 b2).mode = (opcodeRow7 c 0#8 0#8).mode ∧
      encode (opcodeRow7 c b1 b2) =
        [BitVec.ofNat 8 (16 * 7 + c), b1, b2].take (1 + (opcodeRow7 c 0#8 0#8).mode.operandBytes) := by
  interval_cases c <;> exact ⟨rfl, rfl⟩

theorem opcodeRow8_spec (c : Nat) (hc : c < 16) (b1 b2 : Byte) :
    (opcodeRow8 c b1 b2).mode = (opcodeRow8 c 0#8 0#8).mode ∧
      encode (opcodeRow8 c b1 b2) =
        [BitVec.ofNat 8 (16 * 8 + c), b1, b2].take (1 + (opcodeRow8 c 0#8 0#8).mode.operandBytes) := by
  interval_cases c <;> exact ⟨rfl, rfl⟩

theorem opcodeRow9_spec (c : Nat) (hc : c < 16) (b1 b2 : Byte) :
    (opcodeRow9 c b1 b2).mode = (opcodeRow9 c 0#8 0#8).mode ∧
      encode (opcodeRow9 c b1 b2) =
        [BitVec.ofNat 8 (16 * 9 + c), b1, b2].take (1 + (opcodeRow9 c 0#8 0#8).mode.operandBytes) := by
  interval_cases c <;> exact ⟨rfl, rfl⟩

theorem opcodeRowA_spec (c : Nat) (hc : c < 16) (b1 b2 : Byte) :
    (opcodeRowA c b1 b2).mode = (opcodeRowA c 0#8 0#8).mode ∧
      encode (opcodeRowA c b1 b2) =
        [BitVec.ofNat 8 (16 * 10 + c), b1, b2].take (1 + (opcodeRowA c 0#8 0#8).mode.operandBytes) := by
  interval_cases c <;> exact ⟨rfl, rfl⟩

theorem opcodeRowB_spec (c : Nat) (hc : c < 16) (b1 b2 : Byte) :
    (opcodeRowB c b1 b2).mode = (opcodeRowB c 0#8 0#8).mode ∧
      encode (opcodeRowB c b1 b2) =
        [BitVec.ofNat 8 (16 * 11 + c), b1, b2].take (1 + (opcodeRowB c 0#8 0#8).mode.operandBytes) := by
  interval_cases c <;> exact ⟨rfl, rfl⟩

theorem opcodeRowC_spec (c : Nat) (hc : c < 16) (b1 b2 : Byte) :
    (opcodeRowC c b1 b2).mode = (opcodeRowC c 0#8 0#8).mode ∧
      encode (opcodeRowC c b1 b2) =
        [BitVec.ofNat 8 (16 * 12 + c), b1, b2].take (1 + (opcodeRowC c 0#8 0#8).mode.operandBytes) := by
  interval_cases c <;> exact ⟨rfl, rfl⟩

theorem opcodeRowD_spec (c : Nat) (hc : c < 16) (b1 b2 : Byte) :
    (opcodeRowD c b1 b2).mode = (opcodeRowD c 0#8 0#8).mode ∧
      encode (opcodeRowD c b1 b2) =
        [BitVec.ofNat 8 (16 * 13 + c), b1, b2].take (1 + (opcodeRowD c 0#8 0#8).mode.operandBytes) := by
  interval_cases c <;> exact ⟨rfl, rfl⟩

theorem opcodeRowE_spec (c : Nat) (hc : c < 16) (b1 b2 : Byte) :
    (opcodeRowE c b1 b2).mode = (opcodeRowE c 0#8 0#8).mode ∧
      encode (opcodeRowE c b1 b2) =
        [BitVec.ofNat 8 (16 * 14 + c), b1, b2].take (1 + (opcodeRowE c 0#8 0#8).mode.operandBytes) := by
  interval_cases c <;> exact ⟨rfl, rfl⟩

theorem opcodeRowF_spec (c : Nat) (hc : c < 16) (b1 b2 : Byte) :
    (opcodeRowF c b1 b2).mode = (opcodeRowF c 0#8 0#8).mode ∧
      encode (opcodeRowF c b1 b2) =
        [BitVec.ofNat 8 (16 * 15 + c), b1, b2].take (1 + (opcodeRowF c 0#8 0#8).mode.operandBytes) := by
  interval_cases c <;> exact ⟨rfl, rfl⟩

theorem opcodeMap_spec (r c : Nat) (hr : r < 16) (hc : c < 16) (b1 b2 : Byte) :
    (opcodeMap r c b1 b2).mode = (opcodeMap r c 0#8 0#8).mode ∧
      encode (opcodeMap r c b1 b2) =
        [BitVec.ofNat 8 (16 * r + c), b1, b2].take (1 + (opcodeMap r c 0#8 0#8).mode.operandBytes) := by
  interval_cases r
  · exact opcodeRow0_spec c hc b1 b2
  · exact opcodeRow1_spec c hc b1 b2
  · exact opcodeRow2_spec c hc b1 b2
  · exact opcodeRow3_spec c hc b1 b2
  · exact opcodeRow4_spec c hc b1 b2
  · exact opcodeRow5_spec c hc b1 b2
  · exact opcodeRow6_spec c hc b1 b2
  · exact opcodeRow7_spec c hc b1 b2
  · exact opcodeRow8_spec c hc b1 b2
  · exact opcodeRow9_spec c hc b1 b2
  · exact opcodeRowA_spec c hc b1 b2
  · exact opcodeRowB_spec c hc b1 b2
  · exact opcodeRowC_spec c hc b1 b2
  · exact opcodeRowD_spec c hc b1 b2
  · exact opcodeRowE_spec c hc b1 b2
  · exact opcodeRowF_spec c hc b1 b2

/-- The mode does not depend on the operand bytes. -/
theorem mode_decodeBytes (op b1 b2 : Byte) : (decodeBytes op b1 b2).mode = opcodeMode op :=
  (opcodeMap_spec (op.toNat / 16) (op.toNat % 16) (by have := op.isLt; omega) (by omega) b1 b2).1

/-- The bytes of what an opcode byte and two more bytes decode to. -/
theorem encode_decodeBytes (op b1 b2 : Byte) :
    encode (decodeBytes op b1 b2) = [op, b1, b2].take (1 + (opcodeMode op).operandBytes) := by
  have h := (opcodeMap_spec (op.toNat / 16) (op.toNat % 16) (by have := op.isLt; omega) (by omega) b1 b2).2
  rw [Nat.div_add_mod, BitVec.ofNat_toNat, BitVec.setWidth_eq] at h
  exact h

/-- The length table is the length of the modes. -/
theorem tableLength_eq (op : Byte) : tableLength op.toNat = 1 + (opcodeMode op).operandBytes := by
  revert op
  decide +kernel

/-- No instruction has more than two operand bytes (R70). -/
theorem operandBytes_le (m : Mode) : m.operandBytes ≤ 2 := by cases m <;> decide

end Sys2Proof
end

