-- ==== Sys2Proof/Laws/Forms.lean ====
section
/-! SUPPORT. Every form of a mnemonic is one executor call over one body: the forms of Safety.lean against the
arms of `exec`. -/

namespace Sys2Proof.Machine

/-! ### The read discipline -/

theorem exec_ldaForms (nn ll hh : Byte) (s : State) :
    ∀ f ∈ ldaForms nn ll hh, exec f.1 s = .next (executeRead f.2 loadA s) := by
  simp only [ldaForms, List.forall_mem_cons, List.not_mem_nil, false_imp_iff, implies_true, and_true]
  exact ⟨rfl, rfl, rfl, rfl, rfl, rfl, rfl, rfl⟩

theorem exec_ldxForms (nn ll hh : Byte) (s : State) :
    ∀ f ∈ ldxForms nn ll hh, exec f.1 s = .next (executeRead f.2 loadX s) := by
  simp only [ldxForms, List.forall_mem_cons, List.not_mem_nil, false_imp_iff, implies_true, and_true]
  exact ⟨rfl, rfl, rfl, rfl, rfl⟩

theorem exec_ldyForms (nn ll hh : Byte) (s : State) :
    ∀ f ∈ ldyForms nn ll hh, exec f.1 s = .next (executeRead f.2 loadY s) := by
  simp only [ldyForms, List.forall_mem_cons, List.not_mem_nil, false_imp_iff, implies_true, and_true]
  exact ⟨rfl, rfl, rfl, rfl, rfl⟩

theorem exec_adcForms (nn ll hh : Byte) (s : State) :
    ∀ f ∈ adcForms nn ll hh, exec f.1 s = .next (executeRead f.2 adc s) := by
  simp only [adcForms, List.forall_mem_cons, List.not_mem_nil, false_imp_iff, implies_true, and_true]
  exact ⟨rfl, rfl, rfl, rfl, rfl, rfl, rfl, rfl⟩

theorem exec_andForms (nn ll hh : Byte) (s : State) :
    ∀ f ∈ andForms nn ll hh, exec f.1 s = .next (executeRead f.2 and8 s) := by
  simp only [andForms, List.forall_mem_cons, List.not_mem_nil, false_imp_iff, implies_true, and_true]
  exact ⟨rfl, rfl, rfl, rfl, rfl, rfl, rfl, rfl⟩

theorem exec_oraForms (nn ll hh : Byte) (s : State) :
    ∀ f ∈ oraForms nn ll hh, exec f.1 s = .next (executeRead f.2 ora8 s) := by
  simp only [oraForms, List.forall_mem_cons, List.not_mem_nil, false_imp_iff, implies_true, and_true]
  exact ⟨rfl, rfl, rfl, rfl, rfl, rfl, rfl, rfl⟩

theorem exec_eorForms (nn ll hh : Byte) (s : State) :
    ∀ f ∈ eorForms nn ll hh, exec f.1 s = .next (executeRead f.2 eor8 s) := by
  simp only [eorForms, List.forall_mem_cons, List.not_mem_nil, false_imp_iff, implies_true, and_true]
  exact ⟨rfl, rfl, rfl, rfl, rfl, rfl, rfl, rfl⟩

theorem exec_bitForms (nn ll hh : Byte) (s : State) :
    ∀ f ∈ bitForms nn ll hh, exec f.1 s = .next (executeRead f.2 bitTest s) := by
  simp only [bitForms, List.forall_mem_cons, List.not_mem_nil, false_imp_iff, implies_true, and_true]
  exact ⟨rfl, rfl⟩

theorem exec_cmpForms (nn ll hh : Byte) (s : State) :
    ∀ f ∈ cmpForms nn ll hh, exec f.1 s = .next (executeRead f.2 cmpA s) := by
  simp only [cmpForms, List.forall_mem_cons, List.not_mem_nil, false_imp_iff, implies_true, and_true]
  exact ⟨rfl, rfl, rfl, rfl, rfl, rfl, rfl, rfl⟩

theorem exec_cpxForms (nn ll hh : Byte) (s : State) :
    ∀ f ∈ cpxForms nn ll hh, exec f.1 s = .next (executeRead f.2 cmpX s) := by
  simp only [cpxForms, List.forall_mem_cons, List.not_mem_nil, false_imp_iff, implies_true, and_true]
  exact ⟨rfl, rfl, rfl⟩

theorem exec_cpyForms (nn ll hh : Byte) (s : State) :
    ∀ f ∈ cpyForms nn ll hh, exec f.1 s = .next (executeRead f.2 cmpY s) := by
  simp only [cpyForms, List.forall_mem_cons, List.not_mem_nil, false_imp_iff, implies_true, and_true]
  exact ⟨rfl, rfl, rfl⟩

theorem exec_laxForms (nn ll hh : Byte) (s : State) :
    ∀ f ∈ laxForms nn ll hh, exec f.1 s = .next (executeRead f.2 laxBody s) := by
  simp only [laxForms, List.forall_mem_cons, List.not_mem_nil, false_imp_iff, implies_true, and_true]
  exact ⟨rfl, rfl, rfl, rfl, rfl, rfl⟩

theorem exec_sbcForms (nn ll hh : Byte) (s : State) :
    ∀ f ∈ sbcForms nn ll hh, exec f.1 s = .next (executeRead f.2 sbc s) := by
  simp only [sbcForms, List.forall_mem_cons, List.not_mem_nil, false_imp_iff, implies_true, and_true]
  exact ⟨rfl, rfl, rfl, rfl, rfl, rfl, rfl, rfl, rfl⟩

theorem exec_nopForms (o1 : NopImmOpcode) (o2 : NopZpgOpcode) (o3 : NopZpxOpcode)
    (o4 : NopAbxOpcode) (nn ll hh : Byte) (s : State) :
    ∀ f ∈ nopForms o1 o2 o3 o4 nn ll hh, exec f.1 s = .next (executeRead f.2 nopBody s) := by
  simp only [nopForms, List.forall_mem_cons, List.not_mem_nil, false_imp_iff, implies_true, and_true]
  exact ⟨rfl, rfl, rfl, rfl, rfl⟩

/-! ### The write discipline -/

theorem exec_staForms (nn ll hh : Byte) (s : State) :
    ∀ f ∈ staForms nn ll hh, exec f.1 s = .next (executeWrite f.2 State.a s) := by
  simp only [staForms, List.forall_mem_cons, List.not_mem_nil, false_imp_iff, implies_true, and_true]
  exact ⟨rfl, rfl, rfl, rfl, rfl, rfl, rfl⟩

theorem exec_stxForms (nn ll hh : Byte) (s : State) :
    ∀ f ∈ stxForms nn ll hh, exec f.1 s = .next (executeWrite f.2 State.x s) := by
  simp only [stxForms, List.forall_mem_cons, List.not_mem_nil, false_imp_iff, implies_true, and_true]
  exact ⟨rfl, rfl, rfl⟩

theorem exec_styForms (nn ll hh : Byte) (s : State) :
    ∀ f ∈ styForms nn ll hh, exec f.1 s = .next (executeWrite f.2 State.y s) := by
  simp only [styForms, List.forall_mem_cons, List.not_mem_nil, false_imp_iff, implies_true, and_true]
  exact ⟨rfl, rfl, rfl⟩

theorem exec_saxForms (nn ll hh : Byte) (s : State) :
    ∀ f ∈ saxForms nn ll hh, exec f.1 s = .next (executeWrite f.2 saxByte s) := by
  simp only [saxForms, List.forall_mem_cons, List.not_mem_nil, false_imp_iff, implies_true, and_true]
  exact ⟨rfl, rfl, rfl, rfl⟩

/-! ### The read-modify-write discipline -/

theorem exec_aslForms (nn ll hh : Byte) (s : State) :
    ∀ f ∈ aslForms nn ll hh, exec f.1 s = .next (executeRmw f.2 (aluBody aslAlu) s) := by
  simp only [aslForms, List.forall_mem_cons, List.not_mem_nil, false_imp_iff, implies_true, and_true]
  exact ⟨rfl, rfl, rfl, rfl⟩

theorem exec_lsrForms (nn ll hh : Byte) (s : State) :
    ∀ f ∈ lsrForms nn ll hh, exec f.1 s = .next (executeRmw f.2 (aluBody lsrAlu) s) := by
  simp only [lsrForms, List.forall_mem_cons, List.not_mem_nil, false_imp_iff, implies_true, and_true]
  exact ⟨rfl, rfl, rfl, rfl⟩

theorem exec_rolForms (nn ll hh : Byte) (s : State) :
    ∀ f ∈ rolForms nn ll hh, exec f.1 s = .next (executeRmw f.2 (aluBody rolAlu) s) := by
  simp only [rolForms, List.forall_mem_cons, List.not_mem_nil, false_imp_iff, implies_true, and_true]
  exact ⟨rfl, rfl, rfl, rfl⟩

theorem exec_rorForms (nn ll hh : Byte) (s : State) :
    ∀ f ∈ rorForms nn ll hh, exec f.1 s = .next (executeRmw f.2 (aluBody rorAlu) s) := by
  simp only [rorForms, List.forall_mem_cons, List.not_mem_nil, false_imp_iff, implies_true, and_true]
  exact ⟨rfl, rfl, rfl, rfl⟩

theorem exec_incForms (nn ll hh : Byte) (s : State) :
    ∀ f ∈ incForms nn ll hh, exec f.1 s = .next (executeRmw f.2 (aluBody incAlu) s) := by
  simp only [incForms, List.forall_mem_cons, List.not_mem_nil, false_imp_iff, implies_true, and_true]
  exact ⟨rfl, rfl, rfl, rfl⟩

theorem exec_decForms (nn ll hh : Byte) (s : State) :
    ∀ f ∈ decForms nn ll hh, exec f.1 s = .next (executeRmw f.2 (aluBody decAlu) s) := by
  simp only [decForms, List.forall_mem_cons, List.not_mem_nil, false_imp_iff, implies_true, and_true]
  exact ⟨rfl, rfl, rfl, rfl⟩

theorem exec_sloForms (nn ll hh : Byte) (s : State) :
    ∀ f ∈ sloForms nn ll hh, exec f.1 s = .next (executeRmw f.2 sloBody s) := by
  simp only [sloForms, List.forall_mem_cons, List.not_mem_nil, false_imp_iff, implies_true, and_true]
  exact ⟨rfl, rfl, rfl, rfl, rfl, rfl, rfl⟩

theorem exec_rlaForms (nn ll hh : Byte) (s : State) :
    ∀ f ∈ rlaForms nn ll hh, exec f.1 s = .next (executeRmw f.2 rlaBody s) := by
  simp only [rlaForms, List.forall_mem_cons, List.not_mem_nil, false_imp_iff, implies_true, and_true]
  exact ⟨rfl, rfl, rfl, rfl, rfl, rfl, rfl⟩

theorem exec_sreForms (nn ll hh : Byte) (s : State) :
    ∀ f ∈ sreForms nn ll hh, exec f.1 s = .next (executeRmw f.2 sreBody s) := by
  simp only [sreForms, List.forall_mem_cons, List.not_mem_nil, false_imp_iff, implies_true, and_true]
  exact ⟨rfl, rfl, rfl, rfl, rfl, rfl, rfl⟩

theorem exec_rraForms (nn ll hh : Byte) (s : State) :
    ∀ f ∈ rraForms nn ll hh, exec f.1 s = .next (executeRmw f.2 rraBody s) := by
  simp only [rraForms, List.forall_mem_cons, List.not_mem_nil, false_imp_iff, implies_true, and_true]
  exact ⟨rfl, rfl, rfl, rfl, rfl, rfl, rfl⟩

theorem exec_dcpForms (nn ll hh : Byte) (s : State) :
    ∀ f ∈ dcpForms nn ll hh, exec f.1 s = .next (executeRmw f.2 dcpBody s) := by
  simp only [dcpForms, List.forall_mem_cons, List.not_mem_nil, false_imp_iff, implies_true, and_true]
  exact ⟨rfl, rfl, rfl, rfl, rfl, rfl, rfl⟩

theorem exec_iscForms (nn ll hh : Byte) (s : State) :
    ∀ f ∈ iscForms nn ll hh, exec f.1 s = .next (executeRmw f.2 iscBody s) := by
  simp only [iscForms, List.forall_mem_cons, List.not_mem_nil, false_imp_iff, implies_true, and_true]
  exact ⟨rfl, rfl, rfl, rfl, rfl, rfl, rfl⟩

end Sys2Proof.Machine
end

