-- ==== Sys2Proof/Laws/PerInstr.lean ====
section
/-! SUPPORT. Statements about every instruction as syntax, one lemma per constructor. -/

namespace Sys2Proof.Laws

/-- The encoding has the length of the instruction's mode: the opcode byte and the mode's operand bytes
(R70, R71). -/
def EncodingLength.Statement (i : Instr) : Prop := (encode i).length = 1 + i.mode.operandBytes

theorem EncodingLength.brk : EncodingLength.Statement .brk := rfl
theorem EncodingLength.oraIzx (nn : Byte) : EncodingLength.Statement (.oraIzx nn) := rfl
theorem EncodingLength.stp (op : StpOpcode) : EncodingLength.Statement (.stp op) := rfl
theorem EncodingLength.sloIzx (nn : Byte) : EncodingLength.Statement (.sloIzx nn) := rfl
theorem EncodingLength.nopZpg (op : NopZpgOpcode) (nn : Byte) : EncodingLength.Statement (.nopZpg op nn) := rfl
theorem EncodingLength.oraZpg (nn : Byte) : EncodingLength.Statement (.oraZpg nn) := rfl
theorem EncodingLength.aslZpg (nn : Byte) : EncodingLength.Statement (.aslZpg nn) := rfl
theorem EncodingLength.sloZpg (nn : Byte) : EncodingLength.Statement (.sloZpg nn) := rfl
theorem EncodingLength.php : EncodingLength.Statement .php := rfl
theorem EncodingLength.oraImm (nn : Byte) : EncodingLength.Statement (.oraImm nn) := rfl
theorem EncodingLength.aslAcc : EncodingLength.Statement .aslAcc := rfl
theorem EncodingLength.ancImm (op : AncImmOpcode) (nn : Byte) : EncodingLength.Statement (.ancImm op nn) := rfl
theorem EncodingLength.nopAbs (ll : Byte) (hh : Byte) : EncodingLength.Statement (.nopAbs ll hh) := rfl
theorem EncodingLength.oraAbs (ll : Byte) (hh : Byte) : EncodingLength.Statement (.oraAbs ll hh) := rfl
theorem EncodingLength.aslAbs (ll : Byte) (hh : Byte) : EncodingLength.Statement (.aslAbs ll hh) := rfl
theorem EncodingLength.sloAbs (ll : Byte) (hh : Byte) : EncodingLength.Statement (.sloAbs ll hh) := rfl
theorem EncodingLength.bpl (dd : Byte) : EncodingLength.Statement (.bpl dd) := rfl
theorem EncodingLength.oraIzy (nn : Byte) : EncodingLength.Statement (.oraIzy nn) := rfl
theorem EncodingLength.sloIzy (nn : Byte) : EncodingLength.Statement (.sloIzy nn) := rfl
theorem EncodingLength.nopZpx (op : NopZpxOpcode) (nn : Byte) : EncodingLength.Statement (.nopZpx op nn) := rfl
theorem EncodingLength.oraZpx (nn : Byte) : EncodingLength.Statement (.oraZpx nn) := rfl
theorem EncodingLength.aslZpx (nn : Byte) : EncodingLength.Statement (.aslZpx nn) := rfl
theorem EncodingLength.sloZpx (nn : Byte) : EncodingLength.Statement (.sloZpx nn) := rfl
theorem EncodingLength.clc : EncodingLength.Statement .clc := rfl
theorem EncodingLength.oraAby (ll : Byte) (hh : Byte) : EncodingLength.Statement (.oraAby ll hh) := rfl
theorem EncodingLength.nopImp (op : NopImpOpcode) : EncodingLength.Statement (.nopImp op) := rfl
theorem EncodingLength.sloAby (ll : Byte) (hh : Byte) : EncodingLength.Statement (.sloAby ll hh) := rfl
theorem EncodingLength.nopAbx (op : NopAbxOpcode) (ll : Byte) (hh : Byte) : EncodingLength.Statement (.nopAbx op ll hh) := rfl
theorem EncodingLength.oraAbx (ll : Byte) (hh : Byte) : EncodingLength.Statement (.oraAbx ll hh) := rfl
theorem EncodingLength.aslAbx (ll : Byte) (hh : Byte) : EncodingLength.Statement (.aslAbx ll hh) := rfl
theorem EncodingLength.sloAbx (ll : Byte) (hh : Byte) : EncodingLength.Statement (.sloAbx ll hh) := rfl
theorem EncodingLength.jsr (ll : Byte) (hh : Byte) : EncodingLength.Statement (.jsr ll hh) := rfl
theorem EncodingLength.andIzx (nn : Byte) : EncodingLength.Statement (.andIzx nn) := rfl
theorem EncodingLength.rlaIzx (nn : Byte) : EncodingLength.Statement (.rlaIzx nn) := rfl
theorem EncodingLength.bitZpg (nn : Byte) : EncodingLength.Statement (.bitZpg nn) := rfl
theorem EncodingLength.andZpg (nn : Byte) : EncodingLength.Statement (.andZpg nn) := rfl
theorem EncodingLength.rolZpg (nn : Byte) : EncodingLength.Statement (.rolZpg nn) := rfl
theorem EncodingLength.rlaZpg (nn : Byte) : EncodingLength.Statement (.rlaZpg nn) := rfl
theorem EncodingLength.plp : EncodingLength.Statement .plp := rfl
theorem EncodingLength.andImm (nn : Byte) : EncodingLength.Statement (.andImm nn) := rfl
theorem EncodingLength.rolAcc : EncodingLength.Statement .rolAcc := rfl
theorem EncodingLength.bitAbs (ll : Byte) (hh : Byte) : EncodingLength.Statement (.bitAbs ll hh) := rfl
theorem EncodingLength.andAbs (ll : Byte) (hh : Byte) : EncodingLength.Statement (.andAbs ll hh) := rfl
theorem EncodingLength.rolAbs (ll : Byte) (hh : Byte) : EncodingLength.Statement (.rolAbs ll hh) := rfl
theorem EncodingLength.rlaAbs (ll : Byte) (hh : Byte) : EncodingLength.Statement (.rlaAbs ll hh) := rfl
theorem EncodingLength.bmi (dd : Byte) : EncodingLength.Statement (.bmi dd) := rfl
theorem EncodingLength.andIzy (nn : Byte) : EncodingLength.Statement (.andIzy nn) := rfl
theorem EncodingLength.rlaIzy (nn : Byte) : EncodingLength.Statement (.rlaIzy nn) := rfl
theorem EncodingLength.andZpx (nn : Byte) : EncodingLength.Statement (.andZpx nn) := rfl
theorem EncodingLength.rolZpx (nn : Byte) : EncodingLength.Statement (.rolZpx nn) := rfl
theorem EncodingLength.rlaZpx (nn : Byte) : EncodingLength.Statement (.rlaZpx nn) := rfl
theorem EncodingLength.sec : EncodingLength.Statement .sec := rfl
theorem EncodingLength.andAby (ll : Byte) (hh : Byte) : EncodingLength.Statement (.andAby ll hh) := rfl
theorem EncodingLength.rlaAby (ll : Byte) (hh : Byte) : EncodingLength.Statement (.rlaAby ll hh) := rfl
theorem EncodingLength.andAbx (ll : Byte) (hh : Byte) : EncodingLength.Statement (.andAbx ll hh) := rfl
theorem EncodingLength.rolAbx (ll : Byte) (hh : Byte) : EncodingLength.Statement (.rolAbx ll hh) := rfl
theorem EncodingLength.rlaAbx (ll : Byte) (hh : Byte) : EncodingLength.Statement (.rlaAbx ll hh) := rfl
theorem EncodingLength.rti : EncodingLength.Statement .rti := rfl
theorem EncodingLength.eorIzx (nn : Byte) : EncodingLength.Statement (.eorIzx nn) := rfl
theorem EncodingLength.sreIzx (nn : Byte) : EncodingLength.Statement (.sreIzx nn) := rfl
theorem EncodingLength.eorZpg (nn : Byte) : EncodingLength.Statement (.eorZpg nn) := rfl
theorem EncodingLength.lsrZpg (nn : Byte) : EncodingLength.Statement (.lsrZpg nn) := rfl
theorem EncodingLength.sreZpg (nn : Byte) : EncodingLength.Statement (.sreZpg nn) := rfl
theorem EncodingLength.pha : EncodingLength.Statement .pha := rfl
theorem EncodingLength.eorImm (nn : Byte) : EncodingLength.Statement (.eorImm nn) := rfl
theorem EncodingLength.lsrAcc : EncodingLength.Statement .lsrAcc := rfl
theorem EncodingLength.alrImm (nn : Byte) : EncodingLength.Statement (.alrImm nn) := rfl
theorem EncodingLength.jmpAbs (ll : Byte) (hh : Byte) : EncodingLength.Statement (.jmpAbs ll hh) := rfl
theorem EncodingLength.eorAbs (ll : Byte) (hh : Byte) : EncodingLength.Statement (.eorAbs ll hh) := rfl
theorem EncodingLength.lsrAbs (ll : Byte) (hh : Byte) : EncodingLength.Statement (.lsrAbs ll hh) := rfl
theorem EncodingLength.sreAbs (ll : Byte) (hh : Byte) : EncodingLength.Statement (.sreAbs ll hh) := rfl
theorem EncodingLength.bvc (dd : Byte) : EncodingLength.Statement (.bvc dd) := rfl
theorem EncodingLength.eorIzy (nn : Byte) : EncodingLength.Statement (.eorIzy nn) := rfl
theorem EncodingLength.sreIzy (nn : Byte) : EncodingLength.Statement (.sreIzy nn) := rfl
theorem EncodingLength.eorZpx (nn : Byte) : EncodingLength.Statement (.eorZpx nn) := rfl
theorem EncodingLength.lsrZpx (nn : Byte) : EncodingLength.Statement (.lsrZpx nn) := rfl
theorem EncodingLength.sreZpx (nn : Byte) : EncodingLength.Statement (.sreZpx nn) := rfl
theorem EncodingLength.cli : EncodingLength.Statement .cli := rfl
theorem EncodingLength.eorAby (ll : Byte) (hh : Byte) : EncodingLength.Statement (.eorAby ll hh) := rfl
theorem EncodingLength.sreAby (ll : Byte) (hh : Byte) : EncodingLength.Statement (.sreAby ll hh) := rfl
theorem EncodingLength.eorAbx (ll : Byte) (hh : Byte) : EncodingLength.Statement (.eorAbx ll hh) := rfl
theorem EncodingLength.lsrAbx (ll : Byte) (hh : Byte) : EncodingLength.Statement (.lsrAbx ll hh) := rfl
theorem EncodingLength.sreAbx (ll : Byte) (hh : Byte) : EncodingLength.Statement (.sreAbx ll hh) := rfl
theorem EncodingLength.rts : EncodingLength.Statement .rts := rfl
theorem EncodingLength.adcIzx (nn : Byte) : EncodingLength.Statement (.adcIzx nn) := rfl
theorem EncodingLength.rraIzx (nn : Byte) : EncodingLength.Statement (.rraIzx nn) := rfl
theorem EncodingLength.adcZpg (nn : Byte) : EncodingLength.Statement (.adcZpg nn) := rfl
theorem EncodingLength.rorZpg (nn : Byte) : EncodingLength.Statement (.rorZpg nn) := rfl
theorem EncodingLength.rraZpg (nn : Byte) : EncodingLength.Statement (.rraZpg nn) := rfl
theorem EncodingLength.pla : EncodingLength.Statement .pla := rfl
theorem EncodingLength.adcImm (nn : Byte) : EncodingLength.Statement (.adcImm nn) := rfl
theorem EncodingLength.rorAcc : EncodingLength.Statement .rorAcc := rfl
theorem EncodingLength.arrImm (nn : Byte) : EncodingLength.Statement (.arrImm nn) := rfl
theorem EncodingLength.jmpInd (ll : Byte) (hh : Byte) : EncodingLength.Statement (.jmpInd ll hh) := rfl
theorem EncodingLength.adcAbs (ll : Byte) (hh : Byte) : EncodingLength.Statement (.adcAbs ll hh) := rfl
theorem EncodingLength.rorAbs (ll : Byte) (hh : Byte) : EncodingLength.Statement (.rorAbs ll hh) := rfl
theorem EncodingLength.rraAbs (ll : Byte) (hh : Byte) : EncodingLength.Statement (.rraAbs ll hh) := rfl
theorem EncodingLength.bvs (dd : Byte) : EncodingLength.Statement (.bvs dd) := rfl
theorem EncodingLength.adcIzy (nn : Byte) : EncodingLength.Statement (.adcIzy nn) := rfl
theorem EncodingLength.rraIzy (nn : Byte) : EncodingLength.Statement (.rraIzy nn) := rfl
theorem EncodingLength.adcZpx (nn : Byte) : EncodingLength.Statement (.adcZpx nn) := rfl
theorem EncodingLength.rorZpx (nn : Byte) : EncodingLength.Statement (.rorZpx nn) := rfl
theorem EncodingLength.rraZpx (nn : Byte) : EncodingLength.Statement (.rraZpx nn) := rfl
theorem EncodingLength.sei : EncodingLength.Statement .sei := rfl
theorem EncodingLength.adcAby (ll : Byte) (hh : Byte) : EncodingLength.Statement (.adcAby ll hh) := rfl
theorem EncodingLength.rraAby (ll : Byte) (hh : Byte) : EncodingLength.Statement (.rraAby ll hh) := rfl
theorem EncodingLength.adcAbx (ll : Byte) (hh : Byte) : EncodingLength.Statement (.adcAbx ll hh) := rfl
theorem EncodingLength.rorAbx (ll : Byte) (hh : Byte) : EncodingLength.Statement (.rorAbx ll hh) := rfl
theorem EncodingLength.rraAbx (ll : Byte) (hh : Byte) : EncodingLength.Statement (.rraAbx ll hh) := rfl
theorem EncodingLength.nopImm (op : NopImmOpcode) (nn : Byte) : EncodingLength.Statement (.nopImm op nn) := rfl
theorem EncodingLength.staIzx (nn : Byte) : EncodingLength.Statement (.staIzx nn) := rfl
theorem EncodingLength.saxIzx (nn : Byte) : EncodingLength.Statement (.saxIzx nn) := rfl
theorem EncodingLength.styZpg (nn : Byte) : EncodingLength.Statement (.styZpg nn) := rfl
theorem EncodingLength.staZpg (nn : Byte) : EncodingLength.Statement (.staZpg nn) := rfl
theorem EncodingLength.stxZpg (nn : Byte) : EncodingLength.Statement (.stxZpg nn) := rfl
theorem EncodingLength.saxZpg (nn : Byte) : EncodingLength.Statement (.saxZpg nn) := rfl
theorem EncodingLength.dey : EncodingLength.Statement .dey := rfl
theorem EncodingLength.txa : EncodingLength.Statement .txa := rfl
theorem EncodingLength.aneImm (nn : Byte) : EncodingLength.Statement (.aneImm nn) := rfl
theorem EncodingLength.styAbs (ll : Byte) (hh : Byte) : EncodingLength.Statement (.styAbs ll hh) := rfl
theorem EncodingLength.staAbs (ll : Byte) (hh : Byte) : EncodingLength.Statement (.staAbs ll hh) := rfl
theorem EncodingLength.stxAbs (ll : Byte) (hh : Byte) : EncodingLength.Statement (.stxAbs ll hh) := rfl
theorem EncodingLength.saxAbs (ll : Byte) (hh : Byte) : EncodingLength.Statement (.saxAbs ll hh) := rfl
theorem EncodingLength.bcc (dd : Byte) : EncodingLength.Statement (.bcc dd) := rfl
theorem EncodingLength.staIzy (nn : Byte) : EncodingLength.Statement (.staIzy nn) := rfl
theorem EncodingLength.shaIzy (nn : Byte) : EncodingLength.Statement (.shaIzy nn) := rfl
theorem EncodingLength.styZpx (nn : Byte) : EncodingLength.Statement (.styZpx nn) := rfl
theorem EncodingLength.staZpx (nn : Byte) : EncodingLength.Statement (.staZpx nn) := rfl
theorem EncodingLength.stxZpy (nn : Byte) : EncodingLength.Statement (.stxZpy nn) := rfl
theorem EncodingLength.saxZpy (nn : Byte) : EncodingLength.Statement (.saxZpy nn) := rfl
theorem EncodingLength.tya : EncodingLength.Statement .tya := rfl
theorem EncodingLength.staAby (ll : Byte) (hh : Byte) : EncodingLength.Statement (.staAby ll hh) := rfl
theorem EncodingLength.txs : EncodingLength.Statement .txs := rfl
theorem EncodingLength.tasAby (ll : Byte) (hh : Byte) : EncodingLength.Statement (.tasAby ll hh) := rfl
theorem EncodingLength.shyAbx (ll : Byte) (hh : Byte) : EncodingLength.Statement (.shyAbx ll hh) := rfl
theorem EncodingLength.staAbx (ll : Byte) (hh : Byte) : EncodingLength.Statement (.staAbx ll hh) := rfl
theorem EncodingLength.shxAby (ll : Byte) (hh : Byte) : EncodingLength.Statement (.shxAby ll hh) := rfl
theorem EncodingLength.shaAby (ll : Byte) (hh : Byte) : EncodingLength.Statement (.shaAby ll hh) := rfl
theorem EncodingLength.ldyImm (nn : Byte) : EncodingLength.Statement (.ldyImm nn) := rfl
theorem EncodingLength.ldaIzx (nn : Byte) : EncodingLength.Statement (.ldaIzx nn) := rfl
theorem EncodingLength.ldxImm (nn : Byte) : EncodingLength.Statement (.ldxImm nn) := rfl
theorem EncodingLength.laxIzx (nn : Byte) : EncodingLength.Statement (.laxIzx nn) := rfl
theorem EncodingLength.ldyZpg (nn : Byte) : EncodingLength.Statement (.ldyZpg nn) := rfl
theorem EncodingLength.ldaZpg (nn : Byte) : EncodingLength.Statement (.ldaZpg nn) := rfl
theorem EncodingLength.ldxZpg (nn : Byte) : EncodingLength.Statement (.ldxZpg nn) := rfl
theorem EncodingLength.laxZpg (nn : Byte) : EncodingLength.Statement (.laxZpg nn) := rfl
theorem EncodingLength.tay : EncodingLength.Statement .tay := rfl
theorem EncodingLength.ldaImm (nn : Byte) : EncodingLength.Statement (.ldaImm nn) := rfl
theorem EncodingLength.tax : EncodingLength.Statement .tax := rfl
theorem EncodingLength.lxaImm (nn : Byte) : EncodingLength.Statement (.lxaImm nn) := rfl
theorem EncodingLength.ldyAbs (ll : Byte) (hh : Byte) : EncodingLength.Statement (.ldyAbs ll hh) := rfl
theorem EncodingLength.ldaAbs (ll : Byte) (hh : Byte) : EncodingLength.Statement (.ldaAbs ll hh) := rfl
theorem EncodingLength.ldxAbs (ll : Byte) (hh : Byte) : EncodingLength.Statement (.ldxAbs ll hh) := rfl
theorem EncodingLength.laxAbs (ll : Byte) (hh : Byte) : EncodingLength.Statement (.laxAbs ll hh) := rfl
theorem EncodingLength.bcs (dd : Byte) : EncodingLength.Statement (.bcs dd) := rfl
theorem EncodingLength.ldaIzy (nn : Byte) : EncodingLength.Statement (.ldaIzy nn) := rfl
theorem EncodingLength.laxIzy (nn : Byte) : EncodingLength.Statement (.laxIzy nn) := rfl
theorem EncodingLength.ldyZpx (nn : Byte) : EncodingLength.Statement (.ldyZpx nn) := rfl
theorem EncodingLength.ldaZpx (nn : Byte) : EncodingLength.Statement (.ldaZpx nn) := rfl
theorem EncodingLength.ldxZpy (nn : Byte) : EncodingLength.Statement (.ldxZpy nn) := rfl
theorem EncodingLength.laxZpy (nn : Byte) : EncodingLength.Statement (.laxZpy nn) := rfl
theorem EncodingLength.clv : EncodingLength.Statement .clv := rfl
theorem EncodingLength.ldaAby (ll : Byte) (hh : Byte) : EncodingLength.Statement (.ldaAby ll hh) := rfl
theorem EncodingLength.tsx : EncodingLength.Statement .tsx := rfl
theorem EncodingLength.lasAby (ll : Byte) (hh : Byte) : EncodingLength.Statement (.lasAby ll hh) := rfl
theorem EncodingLength.ldyAbx (ll : Byte) (hh : Byte) : EncodingLength.Statement (.ldyAbx ll hh) := rfl
theorem EncodingLength.ldaAbx (ll : Byte) (hh : Byte) : EncodingLength.Statement (.ldaAbx ll hh) := rfl
theorem EncodingLength.ldxAby (ll : Byte) (hh : Byte) : EncodingLength.Statement (.ldxAby ll hh) := rfl
theorem EncodingLength.laxAby (ll : Byte) (hh : Byte) : EncodingLength.Statement (.laxAby ll hh) := rfl
theorem EncodingLength.cpyImm (nn : Byte) : EncodingLength.Statement (.cpyImm nn) := rfl
theorem EncodingLength.cmpIzx (nn : Byte) : EncodingLength.Statement (.cmpIzx nn) := rfl
theorem EncodingLength.dcpIzx (nn : Byte) : EncodingLength.Statement (.dcpIzx nn) := rfl
theorem EncodingLength.cpyZpg (nn : Byte) : EncodingLength.Statement (.cpyZpg nn) := rfl
theorem EncodingLength.cmpZpg (nn : Byte) : EncodingLength.Statement (.cmpZpg nn) := rfl
theorem EncodingLength.decZpg (nn : Byte) : EncodingLength.Statement (.decZpg nn) := rfl
theorem EncodingLength.dcpZpg (nn : Byte) : EncodingLength.Statement (.dcpZpg nn) := rfl
theorem EncodingLength.iny : EncodingLength.Statement .iny := rfl
theorem EncodingLength.cmpImm (nn : Byte) : EncodingLength.Statement (.cmpImm nn) := rfl
theorem EncodingLength.dex : EncodingLength.Statement .dex := rfl
theorem EncodingLength.sbxImm (nn : Byte) : EncodingLength.Statement (.sbxImm nn) := rfl
theorem EncodingLength.cpyAbs (ll : Byte) (hh : Byte) : EncodingLength.Statement (.cpyAbs ll hh) := rfl
theorem EncodingLength.cmpAbs (ll : Byte) (hh : Byte) : EncodingLength.Statement (.cmpAbs ll hh) := rfl
theorem EncodingLength.decAbs (ll : Byte) (hh : Byte) : EncodingLength.Statement (.decAbs ll hh) := rfl
theorem EncodingLength.dcpAbs (ll : Byte) (hh : Byte) : EncodingLength.Statement (.dcpAbs ll hh) := rfl
theorem EncodingLength.bne (dd : Byte) : EncodingLength.Statement (.bne dd) := rfl
theorem EncodingLength.cmpIzy (nn : Byte) : EncodingLength.Statement (.cmpIzy nn) := rfl
theorem EncodingLength.dcpIzy (nn : Byte) : EncodingLength.Statement (.dcpIzy nn) := rfl
theorem EncodingLength.cmpZpx (nn : Byte) : EncodingLength.Statement (.cmpZpx nn) := rfl
theorem EncodingLength.decZpx (nn : Byte) : EncodingLength.Statement (.decZpx nn) := rfl
theorem EncodingLength.dcpZpx (nn : Byte) : EncodingLength.Statement (.dcpZpx nn) := rfl
theorem EncodingLength.cld : EncodingLength.Statement .cld := rfl
theorem EncodingLength.cmpAby (ll : Byte) (hh : Byte) : EncodingLength.Statement (.cmpAby ll hh) := rfl
theorem EncodingLength.dcpAby (ll : Byte) (hh : Byte) : EncodingLength.Statement (.dcpAby ll hh) := rfl
theorem EncodingLength.cmpAbx (ll : Byte) (hh : Byte) : EncodingLength.Statement (.cmpAbx ll hh) := rfl
theorem EncodingLength.decAbx (ll : Byte) (hh : Byte) : EncodingLength.Statement (.decAbx ll hh) := rfl
theorem EncodingLength.dcpAbx (ll : Byte) (hh : Byte) : EncodingLength.Statement (.dcpAbx ll hh) := rfl
theorem EncodingLength.cpxImm (nn : Byte) : EncodingLength.Statement (.cpxImm nn) := rfl
theorem EncodingLength.sbcIzx (nn : Byte) : EncodingLength.Statement (.sbcIzx nn) := rfl
theorem EncodingLength.iscIzx (nn : Byte) : EncodingLength.Statement (.iscIzx nn) := rfl
theorem EncodingLength.cpxZpg (nn : Byte) : EncodingLength.Statement (.cpxZpg nn) := rfl
theorem EncodingLength.sbcZpg (nn : Byte) : EncodingLength.Statement (.sbcZpg nn) := rfl
theorem EncodingLength.incZpg (nn : Byte) : EncodingLength.Statement (.incZpg nn) := rfl
theorem EncodingLength.iscZpg (nn : Byte) : EncodingLength.Statement (.iscZpg nn) := rfl
theorem EncodingLength.inx : EncodingLength.Statement .inx := rfl
theorem EncodingLength.sbcImm (nn : Byte) : EncodingLength.Statement (.sbcImm nn) := rfl
theorem EncodingLength.nop : EncodingLength.Statement .nop := rfl
theorem EncodingLength.sbcImmEB (nn : Byte) : EncodingLength.Statement (.sbcImmEB nn) := rfl
theorem EncodingLength.cpxAbs (ll : Byte) (hh : Byte) : EncodingLength.Statement (.cpxAbs ll hh) := rfl
theorem EncodingLength.sbcAbs (ll : Byte) (hh : Byte) : EncodingLength.Statement (.sbcAbs ll hh) := rfl
theorem EncodingLength.incAbs (ll : Byte) (hh : Byte) : EncodingLength.Statement (.incAbs ll hh) := rfl
theorem EncodingLength.iscAbs (ll : Byte) (hh : Byte) : EncodingLength.Statement (.iscAbs ll hh) := rfl
theorem EncodingLength.beq (dd : Byte) : EncodingLength.Statement (.beq dd) := rfl
theorem EncodingLength.sbcIzy (nn : Byte) : EncodingLength.Statement (.sbcIzy nn) := rfl
theorem EncodingLength.iscIzy (nn : Byte) : EncodingLength.Statement (.iscIzy nn) := rfl
theorem EncodingLength.sbcZpx (nn : Byte) : EncodingLength.Statement (.sbcZpx nn) := rfl
theorem EncodingLength.incZpx (nn : Byte) : EncodingLength.Statement (.incZpx nn) := rfl
theorem EncodingLength.iscZpx (nn : Byte) : EncodingLength.Statement (.iscZpx nn) := rfl
theorem EncodingLength.sed : EncodingLength.Statement .sed := rfl
theorem EncodingLength.sbcAby (ll : Byte) (hh : Byte) : EncodingLength.Statement (.sbcAby ll hh) := rfl
theorem EncodingLength.iscAby (ll : Byte) (hh : Byte) : EncodingLength.Statement (.iscAby ll hh) := rfl
theorem EncodingLength.sbcAbx (ll : Byte) (hh : Byte) : EncodingLength.Statement (.sbcAbx ll hh) := rfl
theorem EncodingLength.incAbx (ll : Byte) (hh : Byte) : EncodingLength.Statement (.incAbx ll hh) := rfl
theorem EncodingLength.iscAbx (ll : Byte) (hh : Byte) : EncodingLength.Statement (.iscAbx ll hh) := rfl

end Sys2Proof.Laws
end

