-- ==== Sys2Proof/Laws/Step.lean ====
section
/-! SUPPORT. The three kinds of step, and the opcode fetch. -/

namespace Sys2Proof.Machine

/-- The opcode fetch reads one byte; the instruction is what that byte and the two bytes the bus answers after it
decode to. -/
theorem fetchInstr_eq (s : State) :
    fetchInstr s =
      (decodeBytes (s.answerAt 0 s.pc) (s.answerAt 1 (s.pc + 1)) (s.answerAt 2 (s.pc + 2)),
        afterReads [rdAt s 0 s.pc] 1 s) := by
  simp [fetchInstr, fetch8_eq, addrOf_one, addrOf_two]

/-- A step runs an instruction exactly when the core is not halted and no interrupt is serviced first. -/
theorem sample_eq_instruction (s : State) : sample s = .instruction ↔ RunsInstruction s := by
  simp only [sample, RunsInstruction]
  cases s.halted <;> cases s.pendingNmi <;> cases s.pendingIrq <;> cases getFlag .i s.p <;> simp

/-- The first step of an instruction is the opcode fetch. -/
theorem fetchInstr_beginStep (s : State) :
    fetchInstr (beginStep s) =
      (decodeBytes (s.answerAt 0 s.pc) (s.answerAt 1 (s.pc + 1)) (s.answerAt 2 (s.pc + 2)),
        afterOpcode s) := by
  rw [fetchInstr_eq]
  simp [rdAt, answerAt_congr (s := s) (t := beginStep s) rfl rfl, afterReads, afterOpcode, addrOf_one]

theorem step_instruction {s : State} (h : RunsInstruction s) :
    step s = exec (fetchInstr (beginStep s)).1 (fetchInstr (beginStep s)).2 := by
  simp only [step, (sample_eq_instruction s).2 h]

theorem step_halted {s : State} (h : s.halted = true) : step s = .next (beginStep s) := by
  simp [step, sample, h]

theorem step_nmi {s : State} (h : s.halted = false) (hn : s.pendingNmi = true) :
    step s = .next (service .nmi (beginStep s)) := by
  simp [step, sample, h, hn]

theorem step_irq {s : State} (h : s.halted = false) (hn : s.pendingNmi = false)
    (hq : s.pendingIrq = true) (hi : getFlag .i s.p = false) :
    step s = .next (service .irq (beginStep s)) := by
  simp [step, sample, h, hn, hq, hi]

/-! ### The canonical form -/

theorem wf_busWrite (a : Word) (v : Byte) (s : State) (h : Memory.wf s.mem = true) :
    Memory.wf (busWrite a v s).mem = true := by
  simp [h]

theorem wf_push (v : Byte) (s : State) (h : Memory.wf s.mem = true) :
    Memory.wf (push v s).mem = true := by
  simp [push, h]

theorem wf_reset : Memory.wf State.reset.mem = true := rfl

/-- Placing an instruction keeps the canonical form. -/
theorem wf_withFetchWord (s : State) (nbits w : Nat) (h : Memory.wf s.mem = true) :
    Memory.wf (s.withFetchWord nbits w).mem = true :=
  Memory.wf_write_addr _ _ _ (Memory.wf_write_addr _ _ _ (Memory.wf_write_addr _ _ _ h))

end Sys2Proof.Machine
end

