-- ==== Sys2Proof/Tests/Slice0.lean ====
section
/-! SUPPORT. Tests. The expected results of the step tests are the vectors of 95_test_vectors.md part 2, those of
the decode tests the opcode map of R76 with the operand layout of R70 and R75. -/

namespace Sys2Proof.Tests

open Sys2Proof.Machine

/-! ### Well-formedness -/

theorem test_wf_refuses_an_empty_encoding : wellFormed [] = false := by decide

theorem test_wf_refuses_a_number_that_is_no_byte : wellFormed [0xA9, 256] = false := by decide

theorem test_wf_refuses_a_short_encoding : wellFormed [0xAD, 0x00] = false := by decide

theorem test_wf_refuses_a_long_encoding : wellFormed [0xEA, 0x00] = false := by decide

theorem test_wf_has_opcode_refuses : hasOpcode [] = false := by decide

theorem test_wf_all_bytes_refuses : allBytes [0x00, 300] = false := by decide

theorem test_wf_right_length_refuses : rightLength [0x4C, 0x34] = false := by decide

theorem test_wf_accepts : wellFormed [0x4C, 0x34, 0x12] = true := by decide

/-! ### Decoding

One theorem a row of the opcode map: each opcode byte followed by the bytes $12 $34. -/

/-- What a byte followed by $12 and $34 decodes to, and how many of the three bytes it takes. -/
def decoded (op : Byte) : Option (Instr × Nat) :=
  match decode [op, 0x12#8, 0x34#8] with
  | .ok (i, rest) => some (i, 3 - rest.length)
  | .error _ => none

theorem test_decode_row_0 :
    [0x00, 0x01, 0x02, 0x03, 0x04, 0x05, 0x06, 0x07,
      0x08, 0x09, 0x0A, 0x0B, 0x0C, 0x0D, 0x0E, 0x0F].map decoded =
      [
        some (.brk, 1), some (.oraIzx 0x12, 2), some (.stp .x02, 1), some (.sloIzx 0x12, 2),
        some (.nopZpg .x04 0x12, 2), some (.oraZpg 0x12, 2), some (.aslZpg 0x12, 2),
        some (.sloZpg 0x12, 2), some (.php, 1), some (.oraImm 0x12, 2), some (.aslAcc, 1),
        some (.ancImm .x0B 0x12, 2), some (.nopAbs 0x12 0x34, 3), some (.oraAbs 0x12 0x34, 3),
        some (.aslAbs 0x12 0x34, 3), some (.sloAbs 0x12 0x34, 3) ] := by
  decide

theorem test_decode_row_1 :
    [0x10, 0x11, 0x12, 0x13, 0x14, 0x15, 0x16, 0x17,
      0x18, 0x19, 0x1A, 0x1B, 0x1C, 0x1D, 0x1E, 0x1F].map decoded =
      [
        some (.bpl 0x12, 2), some (.oraIzy 0x12, 2), some (.stp .x12, 1),
        some (.sloIzy 0x12, 2), some (.nopZpx .x14 0x12, 2), some (.oraZpx 0x12, 2),
        some (.aslZpx 0x12, 2), some (.sloZpx 0x12, 2), some (.clc, 1),
        some (.oraAby 0x12 0x34, 3), some (.nopImp .x1A, 1), some (.sloAby 0x12 0x34, 3),
        some (.nopAbx .x1C 0x12 0x34, 3), some (.oraAbx 0x12 0x34, 3),
        some (.aslAbx 0x12 0x34, 3), some (.sloAbx 0x12 0x34, 3) ] := by
  decide

theorem test_decode_row_2 :
    [0x20, 0x21, 0x22, 0x23, 0x24, 0x25, 0x26, 0x27,
      0x28, 0x29, 0x2A, 0x2B, 0x2C, 0x2D, 0x2E, 0x2F].map decoded =
      [
        some (.jsr 0x12 0x34, 3), some (.andIzx 0x12, 2), some (.stp .x22, 1),
        some (.rlaIzx 0x12, 2), some (.bitZpg 0x12, 2), some (.andZpg 0x12, 2),
        some (.rolZpg 0x12, 2), some (.rlaZpg 0x12, 2), some (.plp, 1), some (.andImm 0x12, 2),
        some (.rolAcc, 1), some (.ancImm .x2B 0x12, 2), some (.bitAbs 0x12 0x34, 3),
        some (.andAbs 0x12 0x34, 3), some (.rolAbs 0x12 0x34, 3), some (.rlaAbs 0x12 0x34, 3) ] := by
  decide

theorem test_decode_row_3 :
    [0x30, 0x31, 0x32, 0x33, 0x34, 0x35, 0x36, 0x37,
      0x38, 0x39, 0x3A, 0x3B, 0x3C, 0x3D, 0x3E, 0x3F].map decoded =
      [
        some (.bmi 0x12, 2), some (.andIzy 0x12, 2), some (.stp .x32, 1),
        some (.rlaIzy 0x12, 2), some (.nopZpx .x34 0x12, 2), some (.andZpx 0x12, 2),
        some (.rolZpx 0x12, 2), some (.rlaZpx 0x12, 2), some (.sec, 1),
        some (.andAby 0x12 0x34, 3), some (.nopImp .x3A, 1), some (.rlaAby 0x12 0x34, 3),
        some (.nopAbx .x3C 0x12 0x34, 3), some (.andAbx 0x12 0x34, 3),
        some (.rolAbx 0x12 0x34, 3), some (.rlaAbx 0x12 0x34, 3) ] := by
  decide

theorem test_decode_row_4 :
    [0x40, 0x41, 0x42, 0x43, 0x44, 0x45, 0x46, 0x47,
      0x48, 0x49, 0x4A, 0x4B, 0x4C, 0x4D, 0x4E, 0x4F].map decoded =
      [
        some (.rti, 1), some (.eorIzx 0x12, 2), some (.stp .x42, 1), some (.sreIzx 0x12, 2),
        some (.nopZpg .x44 0x12, 2), some (.eorZpg 0x12, 2), some (.lsrZpg 0x12, 2),
        some (.sreZpg 0x12, 2), some (.pha, 1), some (.eorImm 0x12, 2), some (.lsrAcc, 1),
        some (.alrImm 0x12, 2), some (.jmpAbs 0x12 0x34, 3), some (.eorAbs 0x12 0x34, 3),
        some (.lsrAbs 0x12 0x34, 3), some (.sreAbs 0x12 0x34, 3) ] := by
  decide

theorem test_decode_row_5 :
    [0x50, 0x51, 0x52, 0x53, 0x54, 0x55, 0x56, 0x57,
      0x58, 0x59, 0x5A, 0x5B, 0x5C, 0x5D, 0x5E, 0x5F].map decoded =
      [
        some (.bvc 0x12, 2), some (.eorIzy 0x12, 2), some (.stp .x52, 1),
        some (.sreIzy 0x12, 2), some (.nopZpx .x54 0x12, 2), some (.eorZpx 0x12, 2),
        some (.lsrZpx 0x12, 2), some (.sreZpx 0x12, 2), some (.cli, 1),
        some (.eorAby 0x12 0x34, 3), some (.nopImp .x5A, 1), some (.sreAby 0x12 0x34, 3),
        some (.nopAbx .x5C 0x12 0x34, 3), some (.eorAbx 0x12 0x34, 3),
        some (.lsrAbx 0x12 0x34, 3), some (.sreAbx 0x12 0x34, 3) ] := by
  decide

theorem test_decode_row_6 :
    [0x60, 0x61, 0x62, 0x63, 0x64, 0x65, 0x66, 0x67,
      0x68, 0x69, 0x6A, 0x6B, 0x6C, 0x6D, 0x6E, 0x6F].map decoded =
      [
        some (.rts, 1), some (.adcIzx 0x12, 2), some (.stp .x62, 1), some (.rraIzx 0x12, 2),
        some (.nopZpg .x64 0x12, 2), some (.adcZpg 0x12, 2), some (.rorZpg 0x12, 2),
        some (.rraZpg 0x12, 2), some (.pla, 1), some (.adcImm 0x12, 2), some (.rorAcc, 1),
        some (.arrImm 0x12, 2), some (.jmpInd 0x12 0x34, 3), some (.adcAbs 0x12 0x34, 3),
        some (.rorAbs 0x12 0x34, 3), some (.rraAbs 0x12 0x34, 3) ] := by
  decide

theorem test_decode_row_7 :
    [0x70, 0x71, 0x72, 0x73, 0x74, 0x75, 0x76, 0x77,
      0x78, 0x79, 0x7A, 0x7B, 0x7C, 0x7D, 0x7E, 0x7F].map decoded =
      [
        some (.bvs 0x12, 2), some (.adcIzy 0x12, 2), some (.stp .x72, 1),
        some (.rraIzy 0x12, 2), some (.nopZpx .x74 0x12, 2), some (.adcZpx 0x12, 2),
        some (.rorZpx 0x12, 2), some (.rraZpx 0x12, 2), some (.sei, 1),
        some (.adcAby 0x12 0x34, 3), some (.nopImp .x7A, 1), some (.rraAby 0x12 0x34, 3),
        some (.nopAbx .x7C 0x12 0x34, 3), some (.adcAbx 0x12 0x34, 3),
        some (.rorAbx 0x12 0x34, 3), some (.rraAbx 0x12 0x34, 3) ] := by
  decide

theorem test_decode_row_8 :
    [0x80, 0x81, 0x82, 0x83, 0x84, 0x85, 0x86, 0x87,
      0x88, 0x89, 0x8A, 0x8B, 0x8C, 0x8D, 0x8E, 0x8F].map decoded =
      [
        some (.nopImm .x80 0x12, 2), some (.staIzx 0x12, 2), some (.nopImm .x82 0x12, 2),
        some (.saxIzx 0x12, 2), some (.styZpg 0x12, 2), some (.staZpg 0x12, 2),
        some (.stxZpg 0x12, 2), some (.saxZpg 0x12, 2), some (.dey, 1),
        some (.nopImm .x89 0x12, 2), some (.txa, 1), some (.aneImm 0x12, 2),
        some (.styAbs 0x12 0x34, 3), some (.staAbs 0x12 0x34, 3), some (.stxAbs 0x12 0x34, 3),
        some (.saxAbs 0x12 0x34, 3) ] := by
  decide

theorem test_decode_row_9 :
    [0x90, 0x91, 0x92, 0x93, 0x94, 0x95, 0x96, 0x97,
      0x98, 0x99, 0x9A, 0x9B, 0x9C, 0x9D, 0x9E, 0x9F].map decoded =
      [
        some (.bcc 0x12, 2), some (.staIzy 0x12, 2), some (.stp .x92, 1),
        some (.shaIzy 0x12, 2), some (.styZpx 0x12, 2), some (.staZpx 0x12, 2),
        some (.stxZpy 0x12, 2), some (.saxZpy 0x12, 2), some (.tya, 1),
        some (.staAby 0x12 0x34, 3), some (.txs, 1), some (.tasAby 0x12 0x34, 3),
        some (.shyAbx 0x12 0x34, 3), some (.staAbx 0x12 0x34, 3), some (.shxAby 0x12 0x34, 3),
        some (.shaAby 0x12 0x34, 3) ] := by
  decide

theorem test_decode_row_A :
    [0xA0, 0xA1, 0xA2, 0xA3, 0xA4, 0xA5, 0xA6, 0xA7,
      0xA8, 0xA9, 0xAA, 0xAB, 0xAC, 0xAD, 0xAE, 0xAF].map decoded =
      [
        some (.ldyImm 0x12, 2), some (.ldaIzx 0x12, 2), some (.ldxImm 0x12, 2),
        some (.laxIzx 0x12, 2), some (.ldyZpg 0x12, 2), some (.ldaZpg 0x12, 2),
        some (.ldxZpg 0x12, 2), some (.laxZpg 0x12, 2), some (.tay, 1), some (.ldaImm 0x12, 2),
        some (.tax, 1), some (.lxaImm 0x12, 2), some (.ldyAbs 0x12 0x34, 3),
        some (.ldaAbs 0x12 0x34, 3), some (.ldxAbs 0x12 0x34, 3), some (.laxAbs 0x12 0x34, 3) ] := by
  decide

theorem test_decode_row_B :
    [0xB0, 0xB1, 0xB2, 0xB3, 0xB4, 0xB5, 0xB6, 0xB7,
      0xB8, 0xB9, 0xBA, 0xBB, 0xBC, 0xBD, 0xBE, 0xBF].map decoded =
      [
        some (.bcs 0x12, 2), some (.ldaIzy 0x12, 2), some (.stp .xB2, 1),
        some (.laxIzy 0x12, 2), some (.ldyZpx 0x12, 2), some (.ldaZpx 0x12, 2),
        some (.ldxZpy 0x12, 2), some (.laxZpy 0x12, 2), some (.clv, 1),
        some (.ldaAby 0x12 0x34, 3), some (.tsx, 1), some (.lasAby 0x12 0x34, 3),
        some (.ldyAbx 0x12 0x34, 3), some (.ldaAbx 0x12 0x34, 3), some (.ldxAby 0x12 0x34, 3),
        some (.laxAby 0x12 0x34, 3) ] := by
  decide

theorem test_decode_row_C :
    [0xC0, 0xC1, 0xC2, 0xC3, 0xC4, 0xC5, 0xC6, 0xC7,
      0xC8, 0xC9, 0xCA, 0xCB, 0xCC, 0xCD, 0xCE, 0xCF].map decoded =
      [
        some (.cpyImm 0x12, 2), some (.cmpIzx 0x12, 2), some (.nopImm .xC2 0x12, 2),
        some (.dcpIzx 0x12, 2), some (.cpyZpg 0x12, 2), some (.cmpZpg 0x12, 2),
        some (.decZpg 0x12, 2), some (.dcpZpg 0x12, 2), some (.iny, 1), some (.cmpImm 0x12, 2),
        some (.dex, 1), some (.sbxImm 0x12, 2), some (.cpyAbs 0x12 0x34, 3),
        some (.cmpAbs 0x12 0x34, 3), some (.decAbs 0x12 0x34, 3), some (.dcpAbs 0x12 0x34, 3) ] := by
  decide

theorem test_decode_row_D :
    [0xD0, 0xD1, 0xD2, 0xD3, 0xD4, 0xD5, 0xD6, 0xD7,
      0xD8, 0xD9, 0xDA, 0xDB, 0xDC, 0xDD, 0xDE, 0xDF].map decoded =
      [
        some (.bne 0x12, 2), some (.cmpIzy 0x12, 2), some (.stp .xD2, 1),
        some (.dcpIzy 0x12, 2), some (.nopZpx .xD4 0x12, 2), some (.cmpZpx 0x12, 2),
        some (.decZpx 0x12, 2), some (.dcpZpx 0x12, 2), some (.cld, 1),
        some (.cmpAby 0x12 0x34, 3), some (.nopImp .xDA, 1), some (.dcpAby 0x12 0x34, 3),
        some (.nopAbx .xDC 0x12 0x34, 3), some (.cmpAbx 0x12 0x34, 3),
        some (.decAbx 0x12 0x34, 3), some (.dcpAbx 0x12 0x34, 3) ] := by
  decide

theorem test_decode_row_E :
    [0xE0, 0xE1, 0xE2, 0xE3, 0xE4, 0xE5, 0xE6, 0xE7,
      0xE8, 0xE9, 0xEA, 0xEB, 0xEC, 0xED, 0xEE, 0xEF].map decoded =
      [
        some (.cpxImm 0x12, 2), some (.sbcIzx 0x12, 2), some (.nopImm .xE2 0x12, 2),
        some (.iscIzx 0x12, 2), some (.cpxZpg 0x12, 2), some (.sbcZpg 0x12, 2),
        some (.incZpg 0x12, 2), some (.iscZpg 0x12, 2), some (.inx, 1), some (.sbcImm 0x12, 2),
        some (.nop, 1), some (.sbcImmEB 0x12, 2), some (.cpxAbs 0x12 0x34, 3),
        some (.sbcAbs 0x12 0x34, 3), some (.incAbs 0x12 0x34, 3), some (.iscAbs 0x12 0x34, 3) ] := by
  decide

theorem test_decode_row_F :
    [0xF0, 0xF1, 0xF2, 0xF3, 0xF4, 0xF5, 0xF6, 0xF7,
      0xF8, 0xF9, 0xFA, 0xFB, 0xFC, 0xFD, 0xFE, 0xFF].map decoded =
      [
        some (.beq 0x12, 2), some (.sbcIzy 0x12, 2), some (.stp .xF2, 1),
        some (.iscIzy 0x12, 2), some (.nopZpx .xF4 0x12, 2), some (.sbcZpx 0x12, 2),
        some (.incZpx 0x12, 2), some (.iscZpx 0x12, 2), some (.sed, 1),
        some (.sbcAby 0x12 0x34, 3), some (.nopImp .xFA, 1), some (.iscAby 0x12 0x34, 3),
        some (.nopAbx .xFC 0x12 0x34, 3), some (.sbcAbx 0x12 0x34, 3),
        some (.incAbx 0x12 0x34, 3), some (.iscAbx 0x12 0x34, 3) ] := by
  decide

theorem test_decode_refuses_no_bytes : decode [] = .error .noOpcode := rfl

theorem test_decode_refuses_a_missing_operand : decode [0xAD#8, 0x00#8] = .error .missingOperand := rfl

theorem test_decode_table_word : decodeTableWord 24 0x1234AD = some (.ldaAbs 0x34 0x12) := by decide

/-! ### Steps -/

/-- The start of a vector: A, X, Y, SP and P, PC, the code at PC, and the other bytes that are not $00. -/
def start (regs : Byte × Byte × Byte × Byte × Byte) (pc : Word) (code : List Byte)
    (cells : List (Word × Byte) := []) : State where
  a := regs.1
  x := regs.2.1
  y := regs.2.2.1
  sp := regs.2.2.2.1
  p := regs.2.2.2.2
  pc := pc
  halted := false
  pendingNmi := false
  pendingIrq := false
  mem := cells.foldl (fun m c => Memory.write m c.1.toNat c.2)
    (code.mapIdx (fun k b => ((pc + addrOf k).toNat, b)) |>.foldl (fun m c => Memory.write m c.1 c.2) [])
  busInput := []
  log := []

/-- What a vector's end gives: A, X, Y, SP and P, PC, halted, and the accesses. -/
def seen (s : State) : Option ((Byte × Byte × Byte × Byte × Byte) × Word × Bool × List BusEvent) :=
  match step s with
  | .next t => some ((t.a, t.x, t.y, t.sp, t.p), t.pc, t.halted, t.log)
  | _ => none

/-- LDA #$00 sets Z -/
theorem test_ldaImm_1 :
    seen (start (0x55, 0x00, 0x00, 0xFD, 0x24) 0x0200 [0xA9, 0x00]) =
      some ((0x00, 0x00, 0x00, 0xFD, 0x26), 0x0202, false,
        [rd 0x0200 0xA9, rd 0x0201 0x00]) := by
  decide

/-- LDA #$80 sets N -/
theorem test_ldaImm_2 :
    seen (start (0x00, 0x00, 0x00, 0xFD, 0x24) 0x0200 [0xA9, 0x80]) =
      some ((0x80, 0x00, 0x00, 0xFD, 0xA4), 0x0202, false,
        [rd 0x0200 0xA9, rd 0x0201 0x80]) := by
  decide

/-- LDA zpx wraps in page zero; base dummy read -/
theorem test_ldaZpx_1 :
    seen (start (0x00, 0x20, 0x00, 0xFD, 0x24) 0x0200 [0xB5, 0xF0] [(0x0010, 0x7F)]) =
      some ((0x7F, 0x20, 0x00, 0xFD, 0x24), 0x0202, false,
        [rd 0x0200 0xB5, rd 0x0201 0xF0, rd 0x00F0 0x00, rd 0x0010 0x7F]) := by
  decide

/-- LDA abx no crossing: 4 accesses -/
theorem test_ldaAbx_1 :
    seen (start (0x00, 0x05, 0x00, 0xFD, 0x24) 0x0200 [0xBD, 0x00, 0x12] [(0x1205, 0x01)]) =
      some ((0x01, 0x05, 0x00, 0xFD, 0x24), 0x0203, false,
        [rd 0x0200 0xBD, rd 0x0201 0x00, rd 0x0202 0x12, rd 0x1205 0x01]) := by
  decide

/-- LDA abx crossing: dummy read at un-fixed $1200 -/
theorem test_ldaAbx_2 :
    seen (start (0x00, 0x01, 0x00, 0xFD, 0x24) 0x0200 [0xBD, 0xFF, 0x12] [(0x1300, 0x42)]) =
      some ((0x42, 0x01, 0x00, 0xFD, 0x24), 0x0203, false,
        [rd 0x0200 0xBD, rd 0x0201 0xFF, rd 0x0202 0x12, rd 0x1200 0x00, rd 0x1300 0x42]) := by
  decide

/-- LDA ($FF,X) with X=0: pointer from $FF and $00 (§8 invariant) -/
theorem test_ldaIzx_1 :
    seen (start (0x00, 0x00, 0x00, 0xFD, 0x24) 0x0200 [0xA1, 0xFF] [(0x0000, 0x12), (0x00FF, 0x34), (0x1234, 0x99)]) =
      some ((0x99, 0x00, 0x00, 0xFD, 0xA4), 0x0202, false,
        [rd 0x0200 0xA1, rd 0x0201 0xFF, rd 0x00FF 0x34, rd 0x00FF 0x34, rd 0x0000 0x12,
        rd 0x1234 0x99]) := by
  decide

/-- LDA izy crossing -/
theorem test_ldaIzy_1 :
    seen (start (0x00, 0x00, 0x20, 0xFD, 0x24) 0x0200 [0xB1, 0x10] [(0x0010, 0xF0), (0x0011, 0x04), (0x0510, 0x80)]) =
      some ((0x80, 0x00, 0x20, 0xFD, 0xA4), 0x0202, false,
        [rd 0x0200 0xB1, rd 0x0201 0x10, rd 0x0010 0xF0, rd 0x0011 0x04, rd 0x0410 0x00,
        rd 0x0510 0x80]) := by
  decide

/-- LDA izy pointer at $FF wraps to $00 -/
theorem test_ldaIzy_2 :
    seen (start (0x00, 0x00, 0x01, 0xFD, 0x24) 0x0200 [0xB1, 0xFF] [(0x0000, 0x03), (0x00FF, 0x00), (0x0301, 0x11)]) =
      some ((0x11, 0x00, 0x01, 0xFD, 0x24), 0x0202, false,
        [rd 0x0200 0xB1, rd 0x0201 0xFF, rd 0x00FF 0x00, rd 0x0000 0x03, rd 0x0301 0x11]) := by
  decide

/-- LDX zpy wraps -/
theorem test_ldxZpy_1 :
    seen (start (0x00, 0x00, 0x20, 0xFD, 0x24) 0x0200 [0xB6, 0xF0] [(0x0010, 0x00)]) =
      some ((0x00, 0x00, 0x20, 0xFD, 0x26), 0x0202, false,
        [rd 0x0200 0xB6, rd 0x0201 0xF0, rd 0x00F0 0x00, rd 0x0010 0x00]) := by
  decide

/-- LDY abx crossing -/
theorem test_ldyAbx_1 :
    seen (start (0x00, 0x20, 0x00, 0xFD, 0x24) 0x0200 [0xBC, 0xF0, 0x02] [(0x0310, 0xFE)]) =
      some ((0x00, 0x20, 0xFE, 0xFD, 0xA4), 0x0203, false,
        [rd 0x0200 0xBC, rd 0x0201 0xF0, rd 0x0202 0x02, rd 0x0210 0x00, rd 0x0310 0xFE]) := by
  decide

/-- STA abx crossing (R203 example) -/
theorem test_staAbx_1 :
    seen (start (0x42, 0x01, 0x00, 0xFD, 0x24) 0x0200 [0x9D, 0xFF, 0x12]) =
      some ((0x42, 0x01, 0x00, 0xFD, 0x24), 0x0203, false,
        [rd 0x0200 0x9D, rd 0x0201 0xFF, rd 0x0202 0x12, rd 0x1200 0x00, wr 0x1300 0x42]) := by
  decide

/-- STA abx without crossing still dummy-reads ea -/
theorem test_staAbx_2 :
    seen (start (0x42, 0x01, 0x00, 0xFD, 0x24) 0x0200 [0x9D, 0x00, 0x12]) =
      some ((0x42, 0x01, 0x00, 0xFD, 0x24), 0x0203, false,
        [rd 0x0200 0x9D, rd 0x0201 0x00, rd 0x0202 0x12, rd 0x1201 0x00, wr 0x1201 0x42]) := by
  decide

/-- STA izy without crossing: 6 accesses -/
theorem test_staIzy_1 :
    seen (start (0x07, 0x00, 0x01, 0xFD, 0x24) 0x0200 [0x91, 0x10] [(0x0010, 0x00), (0x0011, 0x03)]) =
      some ((0x07, 0x00, 0x01, 0xFD, 0x24), 0x0202, false,
        [rd 0x0200 0x91, rd 0x0201 0x10, rd 0x0010 0x00, rd 0x0011 0x03, rd 0x0301 0x00,
        wr 0x0301 0x07]) := by
  decide

/-- STX zpy wraps -/
theorem test_stxZpy_1 :
    seen (start (0x00, 0x33, 0x02, 0xFD, 0x24) 0x0200 [0x96, 0xFF]) =
      some ((0x00, 0x33, 0x02, 0xFD, 0x24), 0x0202, false,
        [rd 0x0200 0x96, rd 0x0201 0xFF, rd 0x00FF 0x00, wr 0x0001 0x33]) := by
  decide

/-- STY abs -/
theorem test_styAbs_1 :
    seen (start (0x00, 0x00, 0xFF, 0xFD, 0x24) 0x0200 [0x8C, 0x00, 0x03]) =
      some ((0x00, 0x00, 0xFF, 0xFD, 0x24), 0x0203, false,
        [rd 0x0200 0x8C, rd 0x0201 0x00, rd 0x0202 0x03, wr 0x0300 0xFF]) := by
  decide

/-- TAX of zero -/
theorem test_tax_1 :
    seen (start (0x00, 0x12, 0x00, 0xFD, 0xA4) 0x0200 [0xAA]) =
      some ((0x00, 0x00, 0x00, 0xFD, 0x26), 0x0201, false,
        [rd 0x0200 0xAA, rd 0x0201 0x00]) := by
  decide

/-- TSX -/
theorem test_tsx_1 :
    seen (start (0x00, 0x00, 0x00, 0xFD, 0x24) 0x0200 [0xBA]) =
      some ((0x00, 0xFD, 0x00, 0xFD, 0xA4), 0x0201, false,
        [rd 0x0200 0xBA, rd 0x0201 0x00]) := by
  decide

/-- TXS sets no flag -/
theorem test_txs_1 :
    seen (start (0x00, 0x00, 0x00, 0xFD, 0x24) 0x0200 [0x9A]) =
      some ((0x00, 0x00, 0x00, 0x00, 0x24), 0x0201, false,
        [rd 0x0200 0x9A, rd 0x0201 0x00]) := by
  decide

/-- TYA negative -/
theorem test_tya_1 :
    seen (start (0x00, 0x00, 0x80, 0xFD, 0x24) 0x0200 [0x98]) =
      some ((0x80, 0x00, 0x80, 0xFD, 0xA4), 0x0201, false,
        [rd 0x0200 0x98, rd 0x0201 0x00]) := by
  decide

/-- ADC #$FF with A=1, C=1 (§8 scenario 2) -/
theorem test_adcImm_1 :
    seen (start (0x01, 0x00, 0x00, 0xFD, 0x25) 0x0200 [0x69, 0xFF]) =
      some ((0x01, 0x00, 0x00, 0xFD, 0x25), 0x0202, false,
        [rd 0x0200 0x69, rd 0x0201 0xFF]) := by
  decide

/-- ADC signed overflow $7F+$01 -/
theorem test_adcImm_2 :
    seen (start (0x7F, 0x00, 0x00, 0xFD, 0x24) 0x0200 [0x69, 0x01]) =
      some ((0x80, 0x00, 0x00, 0xFD, 0xE4), 0x0202, false,
        [rd 0x0200 0x69, rd 0x0201 0x01]) := by
  decide

/-- SBC #$01 from $00 with C=1: borrow -/
theorem test_sbcImm_1 :
    seen (start (0x00, 0x00, 0x00, 0xFD, 0x25) 0x0200 [0xE9, 0x01]) =
      some ((0xFF, 0x00, 0x00, 0xFD, 0xA4), 0x0202, false,
        [rd 0x0200 0xE9, rd 0x0201 0x01]) := by
  decide

/-- SBC #$01 from $80: overflow -/
theorem test_sbcImm_2 :
    seen (start (0x80, 0x00, 0x00, 0xFD, 0x25) 0x0200 [0xE9, 0x01]) =
      some ((0x7F, 0x00, 0x00, 0xFD, 0x65), 0x0202, false,
        [rd 0x0200 0xE9, rd 0x0201 0x01]) := by
  decide

/-- AND #$0F -/
theorem test_andImm_1 :
    seen (start (0xF3, 0x00, 0x00, 0xFD, 0x24) 0x0200 [0x29, 0x0F]) =
      some ((0x03, 0x00, 0x00, 0xFD, 0x24), 0x0202, false,
        [rd 0x0200 0x29, rd 0x0201 0x0F]) := by
  decide

/-- ORA zpg -/
theorem test_oraZpg_1 :
    seen (start (0x01, 0x00, 0x00, 0xFD, 0x24) 0x0200 [0x05, 0x10] [(0x0010, 0x80)]) =
      some ((0x81, 0x00, 0x00, 0xFD, 0xA4), 0x0202, false,
        [rd 0x0200 0x05, rd 0x0201 0x10, rd 0x0010 0x80]) := by
  decide

/-- EOR #$FF -/
theorem test_eorImm_1 :
    seen (start (0x0F, 0x00, 0x00, 0xFD, 0x24) 0x0200 [0x49, 0xFF]) =
      some ((0xF0, 0x00, 0x00, 0xFD, 0xA4), 0x0202, false,
        [rd 0x0200 0x49, rd 0x0201 0xFF]) := by
  decide

/-- BIT abs: N,V from memory, Z from A&val -/
theorem test_bitAbs_1 :
    seen (start (0x00, 0x00, 0x00, 0xFD, 0x24) 0x0200 [0x2C, 0x02, 0x20] [(0x2002, 0xC0)]) =
      some ((0x00, 0x00, 0x00, 0xFD, 0xE6), 0x0203, false,
        [rd 0x0200 0x2C, rd 0x0201 0x02, rd 0x0202 0x20, rd 0x2002 0xC0]) := by
  decide

/-- BIT zpg clears N,V -/
theorem test_bitZpg_1 :
    seen (start (0x01, 0x00, 0x00, 0xFD, 0xE4) 0x0200 [0x24, 0x10] [(0x0010, 0x01)]) =
      some ((0x01, 0x00, 0x00, 0xFD, 0x24), 0x0202, false,
        [rd 0x0200 0x24, rd 0x0201 0x10, rd 0x0010 0x01]) := by
  decide

/-- CMP #$10 with A=$0F (§8 scenario 3) -/
theorem test_cmpImm_1 :
    seen (start (0x0F, 0x00, 0x00, 0xFD, 0x24) 0x0200 [0xC9, 0x10]) =
      some ((0x0F, 0x00, 0x00, 0xFD, 0xA4), 0x0202, false,
        [rd 0x0200 0xC9, rd 0x0201 0x10]) := by
  decide

/-- CMP equal -/
theorem test_cmpImm_2 :
    seen (start (0x42, 0x00, 0x00, 0xFD, 0x24) 0x0200 [0xC9, 0x42]) =
      some ((0x42, 0x00, 0x00, 0xFD, 0x27), 0x0202, false,
        [rd 0x0200 0xC9, rd 0x0201 0x42]) := by
  decide

/-- CPX #$05 -/
theorem test_cpxImm_1 :
    seen (start (0x00, 0x05, 0x00, 0xFD, 0x24) 0x0200 [0xE0, 0x05]) =
      some ((0x00, 0x05, 0x00, 0xFD, 0x27), 0x0202, false,
        [rd 0x0200 0xE0, rd 0x0201 0x05]) := by
  decide

/-- CPY #$10 with Y=$20 -/
theorem test_cpyImm_1 :
    seen (start (0x00, 0x00, 0x20, 0xFD, 0x24) 0x0200 [0xC0, 0x10]) =
      some ((0x00, 0x00, 0x20, 0xFD, 0x25), 0x0202, false,
        [rd 0x0200 0xC0, rd 0x0201 0x10]) := by
  decide

/-- INC zpg $FF wraps to $00 -/
theorem test_incZpg_1 :
    seen (start (0x00, 0x00, 0x00, 0xFD, 0x24) 0x0200 [0xE6, 0x10] [(0x0010, 0xFF)]) =
      some ((0x00, 0x00, 0x00, 0xFD, 0x26), 0x0202, false,
        [rd 0x0200 0xE6, rd 0x0201 0x10, rd 0x0010 0xFF, wr 0x0010 0xFF, wr 0x0010 0x00]) := by
  decide

/-- INC abx always 7 accesses -/
theorem test_incAbx_1 :
    seen (start (0x00, 0x01, 0x00, 0xFD, 0x24) 0x0200 [0xFE, 0x00, 0x03] [(0x0301, 0x7F)]) =
      some ((0x00, 0x01, 0x00, 0xFD, 0xA4), 0x0203, false,
        [rd 0x0200 0xFE, rd 0x0201 0x00, rd 0x0202 0x03, rd 0x0301 0x7F, rd 0x0301 0x7F,
        wr 0x0301 0x7F, wr 0x0301 0x80]) := by
  decide

/-- DEC abs $01 to $00 -/
theorem test_decAbs_1 :
    seen (start (0x00, 0x00, 0x00, 0xFD, 0x24) 0x0200 [0xCE, 0x00, 0x03] [(0x0300, 0x01)]) =
      some ((0x00, 0x00, 0x00, 0xFD, 0x26), 0x0203, false,
        [rd 0x0200 0xCE, rd 0x0201 0x00, rd 0x0202 0x03, rd 0x0300 0x01, wr 0x0300 0x01,
        wr 0x0300 0x00]) := by
  decide

/-- INX wraps -/
theorem test_inx_1 :
    seen (start (0x00, 0xFF, 0x00, 0xFD, 0x24) 0x0200 [0xE8]) =
      some ((0x00, 0x00, 0x00, 0xFD, 0x26), 0x0201, false,
        [rd 0x0200 0xE8, rd 0x0201 0x00]) := by
  decide

/-- DEY wraps -/
theorem test_dey_1 :
    seen (start (0x00, 0x00, 0x00, 0xFD, 0x24) 0x0200 [0x88]) =
      some ((0x00, 0x00, 0xFF, 0xFD, 0xA4), 0x0201, false,
        [rd 0x0200 0x88, rd 0x0201 0x00]) := by
  decide

/-- ASL A $81 -/
theorem test_aslAcc_1 :
    seen (start (0x81, 0x00, 0x00, 0xFD, 0x24) 0x0200 [0x0A]) =
      some ((0x02, 0x00, 0x00, 0xFD, 0x25), 0x0201, false,
        [rd 0x0200 0x0A, rd 0x0201 0x00]) := by
  decide

/-- ASL A $80 gives zero -/
theorem test_aslAcc_2 :
    seen (start (0x80, 0x00, 0x00, 0xFD, 0x24) 0x0200 [0x0A]) =
      some ((0x00, 0x00, 0x00, 0xFD, 0x27), 0x0201, false,
        [rd 0x0200 0x0A, rd 0x0201 0x00]) := by
  decide

/-- LSR zpg -/
theorem test_lsrZpg_1 :
    seen (start (0x00, 0x00, 0x00, 0xFD, 0x24) 0x0200 [0x46, 0x20] [(0x0020, 0x03)]) =
      some ((0x00, 0x00, 0x00, 0xFD, 0x25), 0x0202, false,
        [rd 0x0200 0x46, rd 0x0201 0x20, rd 0x0020 0x03, wr 0x0020 0x03, wr 0x0020 0x01]) := by
  decide

/-- ROL A with C=1 -/
theorem test_rolAcc_1 :
    seen (start (0x40, 0x00, 0x00, 0xFD, 0x25) 0x0200 [0x2A]) =
      some ((0x81, 0x00, 0x00, 0xFD, 0xA4), 0x0201, false,
        [rd 0x0200 0x2A, rd 0x0201 0x00]) := by
  decide

/-- ROR A with C=1 -/
theorem test_rorAcc_1 :
    seen (start (0x01, 0x00, 0x00, 0xFD, 0x25) 0x0200 [0x6A]) =
      some ((0x80, 0x00, 0x00, 0xFD, 0xA5), 0x0201, false,
        [rd 0x0200 0x6A, rd 0x0201 0x00]) := by
  decide

/-- ROR abx, C=0 -/
theorem test_rorAbx_1 :
    seen (start (0x00, 0x01, 0x00, 0xFD, 0x24) 0x0200 [0x7E, 0xFF, 0x02] [(0x0300, 0x02)]) =
      some ((0x00, 0x01, 0x00, 0xFD, 0x24), 0x0203, false,
        [rd 0x0200 0x7E, rd 0x0201 0xFF, rd 0x0202 0x02, rd 0x0200 0x7E, rd 0x0300 0x02,
        wr 0x0300 0x02, wr 0x0300 0x01]) := by
  decide

/-- BNE not taken: 2 accesses -/
theorem test_bne_1 :
    seen (start (0x00, 0x00, 0x00, 0xFD, 0x26) 0x0200 [0xD0, 0x10]) =
      some ((0x00, 0x00, 0x00, 0xFD, 0x26), 0x0202, false,
        [rd 0x0200 0xD0, rd 0x0201 0x10]) := by
  decide

/-- BNE taken same page: 3 accesses -/
theorem test_bne_2 :
    seen (start (0x00, 0x00, 0x00, 0xFD, 0x24) 0x0200 [0xD0, 0x10]) =
      some ((0x00, 0x00, 0x00, 0xFD, 0x24), 0x0212, false,
        [rd 0x0200 0xD0, rd 0x0201 0x10, rd 0x0202 0x00]) := by
  decide

/-- BVS taken backward across page -/
theorem test_bvs_1 :
    seen (start (0x00, 0x00, 0x00, 0xFD, 0x64) 0x0200 [0x70, 0x80]) =
      some ((0x00, 0x00, 0x00, 0xFD, 0x64), 0x0182, false,
        [rd 0x0200 0x70, rd 0x0201 0x80, rd 0x0202 0x00, rd 0x0282 0x00]) := by
  decide

/-- BEQ taken forward across page -/
theorem test_beq_1 :
    seen (start (0x00, 0x00, 0x00, 0xFD, 0x26) 0x02F0 [0xF0, 0x20]) =
      some ((0x00, 0x00, 0x00, 0xFD, 0x26), 0x0312, false,
        [rd 0x02F0 0xF0, rd 0x02F1 0x20, rd 0x02F2 0x00, rd 0x0212 0x00]) := by
  decide

/-- BPL to itself -/
theorem test_bpl_1 :
    seen (start (0x00, 0x00, 0x00, 0xFD, 0x24) 0x0200 [0x10, 0xFE]) =
      some ((0x00, 0x00, 0x00, 0xFD, 0x24), 0x0200, false,
        [rd 0x0200 0x10, rd 0x0201 0xFE, rd 0x0202 0x00]) := by
  decide

/-- JMP abs -/
theorem test_jmpAbs_1 :
    seen (start (0x00, 0x00, 0x00, 0xFD, 0x24) 0x0200 [0x4C, 0x00, 0x80]) =
      some ((0x00, 0x00, 0x00, 0xFD, 0x24), 0x8000, false,
        [rd 0x0200 0x4C, rd 0x0201 0x00, rd 0x0202 0x80]) := by
  decide

/-- JMP ($02FF) page bug (§8 scenario 4, placed at $8000) -/
theorem test_jmpInd_1 :
    seen (start (0x00, 0x00, 0x00, 0xFD, 0x24) 0x8000 [0x6C, 0xFF, 0x02] [(0x0200, 0x12), (0x02FF, 0x34), (0x0300, 0x56)]) =
      some ((0x00, 0x00, 0x00, 0xFD, 0x24), 0x1234, false,
        [rd 0x8000 0x6C, rd 0x8001 0xFF, rd 0x8002 0x02, rd 0x02FF 0x34, rd 0x0200 0x12]) := by
  decide

/-- JMP ($10FF) reads $10FF then $1000 (§8 invariant) -/
theorem test_jmpInd_2 :
    seen (start (0x00, 0x00, 0x00, 0xFD, 0x24) 0x8000 [0x6C, 0xFF, 0x10] [(0x1000, 0x90), (0x10FF, 0x00), (0x1100, 0xAA)]) =
      some ((0x00, 0x00, 0x00, 0xFD, 0x24), 0x9000, false,
        [rd 0x8000 0x6C, rd 0x8001 0xFF, rd 0x8002 0x10, rd 0x10FF 0x00, rd 0x1000 0x90]) := by
  decide

/-- JSR -/
theorem test_jsr_1 :
    seen (start (0x00, 0x00, 0x00, 0xFD, 0x24) 0x0200 [0x20, 0x00, 0x80]) =
      some ((0x00, 0x00, 0x00, 0xFB, 0x24), 0x8000, false,
        [rd 0x0200 0x20, rd 0x0201 0x00, rd 0x01FD 0x00, wr 0x01FD 0x02, wr 0x01FC 0x02,
        rd 0x0202 0x80]) := by
  decide

/-- RTS -/
theorem test_rts_1 :
    seen (start (0x00, 0x00, 0x00, 0xFB, 0x24) 0x0200 [0x60] [(0x01FC, 0x02), (0x01FD, 0x02)]) =
      some ((0x00, 0x00, 0x00, 0xFD, 0x24), 0x0203, false,
        [rd 0x0200 0x60, rd 0x0201 0x00, rd 0x01FB 0x00, rd 0x01FC 0x02, rd 0x01FD 0x02,
        rd 0x0202 0x00]) := by
  decide

/-- RTS from $FFFF returns to $0000 -/
theorem test_rts_2 :
    seen (start (0x00, 0x00, 0x00, 0xFD, 0x24) 0x0200 [0x60] [(0x01FE, 0xFF), (0x01FF, 0xFF)]) =
      some ((0x00, 0x00, 0x00, 0xFF, 0x24), 0x0000, false,
        [rd 0x0200 0x60, rd 0x0201 0x00, rd 0x01FD 0x00, rd 0x01FE 0xFF, rd 0x01FF 0xFF,
        rd 0xFFFF 0x00]) := by
  decide

/-- BRK (§8 scenario 5) -/
theorem test_brk_1 :
    seen (start (0x00, 0x00, 0x00, 0xFD, 0x24) 0x1000 [0x00, 0xEA] [(0xFFFE, 0x00), (0xFFFF, 0x90)]) =
      some ((0x00, 0x00, 0x00, 0xFA, 0x24), 0x9000, false,
        [rd 0x1000 0x00, rd 0x1001 0xEA, wr 0x01FD 0x10, wr 0x01FC 0x02, wr 0x01FB 0x34,
        rd 0xFFFE 0x00, rd 0xFFFF 0x90]) := by
  decide

/-- BRK with I=1 is still taken -/
theorem test_brk_2 :
    seen (start (0x00, 0x00, 0x00, 0x02, 0x26) 0x0400 [0x00, 0x00] [(0xFFFE, 0x34), (0xFFFF, 0x12)]) =
      some ((0x00, 0x00, 0x00, 0xFF, 0x26), 0x1234, false,
        [rd 0x0400 0x00, rd 0x0401 0x00, wr 0x0102 0x04, wr 0x0101 0x02, wr 0x0100 0x36,
        rd 0xFFFE 0x34, rd 0xFFFF 0x12]) := by
  decide

/-- RTI keeps B, U of the register -/
theorem test_rti_1 :
    seen (start (0x00, 0x00, 0x00, 0xFA, 0x24) 0x0200 [0x40] [(0x01FB, 0xDB), (0x01FC, 0x34), (0x01FD, 0x12)]) =
      some ((0x00, 0x00, 0x00, 0xFD, 0xEB), 0x1234, false,
        [rd 0x0200 0x40, rd 0x0201 0x00, rd 0x01FA 0x00, rd 0x01FB 0xDB, rd 0x01FC 0x34,
        rd 0x01FD 0x12]) := by
  decide

/-- PHA -/
theorem test_pha_1 :
    seen (start (0x42, 0x00, 0x00, 0xFD, 0x24) 0x0200 [0x48]) =
      some ((0x42, 0x00, 0x00, 0xFC, 0x24), 0x0201, false,
        [rd 0x0200 0x48, rd 0x0201 0x00, wr 0x01FD 0x42]) := by
  decide

/-- PHA with SP=$00 wraps -/
theorem test_pha_2 :
    seen (start (0x42, 0x00, 0x00, 0x00, 0x24) 0x0200 [0x48]) =
      some ((0x42, 0x00, 0x00, 0xFF, 0x24), 0x0201, false,
        [rd 0x0200 0x48, rd 0x0201 0x00, wr 0x0100 0x42]) := by
  decide

/-- PHP pushes P|$30 -/
theorem test_php_1 :
    seen (start (0x00, 0x00, 0x00, 0xFD, 0x24) 0x0200 [0x08]) =
      some ((0x00, 0x00, 0x00, 0xFC, 0x24), 0x0201, false,
        [rd 0x0200 0x08, rd 0x0201 0x00, wr 0x01FD 0x34]) := by
  decide

/-- PLA -/
theorem test_pla_1 :
    seen (start (0x00, 0x00, 0x00, 0xFC, 0x24) 0x0200 [0x68] [(0x01FD, 0x80)]) =
      some ((0x80, 0x00, 0x00, 0xFD, 0xA4), 0x0201, false,
        [rd 0x0200 0x68, rd 0x0201 0x00, rd 0x01FC 0x00, rd 0x01FD 0x80]) := by
  decide

/-- PLA with SP=$FF reads $0100 -/
theorem test_pla_2 :
    seen (start (0x11, 0x00, 0x00, 0xFF, 0x24) 0x0200 [0x68] [(0x0100, 0x00)]) =
      some ((0x00, 0x00, 0x00, 0x00, 0x26), 0x0201, false,
        [rd 0x0200 0x68, rd 0x0201 0x00, rd 0x01FF 0x00, rd 0x0100 0x00]) := by
  decide

/-- PLP keeps B, U -/
theorem test_plp_1 :
    seen (start (0x00, 0x00, 0x00, 0xFC, 0x24) 0x0200 [0x28] [(0x01FD, 0xC3)]) =
      some ((0x00, 0x00, 0x00, 0xFD, 0xE3), 0x0201, false,
        [rd 0x0200 0x28, rd 0x0201 0x00, rd 0x01FC 0x00, rd 0x01FD 0xC3]) := by
  decide

/-- PLP of $FF: B,U stay as stored -/
theorem test_plp_2 :
    seen (start (0x00, 0x00, 0x00, 0xFC, 0x20) 0x0200 [0x28] [(0x01FD, 0xFF)]) =
      some ((0x00, 0x00, 0x00, 0xFD, 0xEF), 0x0201, false,
        [rd 0x0200 0x28, rd 0x0201 0x00, rd 0x01FC 0x00, rd 0x01FD 0xFF]) := by
  decide

/-- CLC -/
theorem test_clc_1 :
    seen (start (0x00, 0x00, 0x00, 0xFD, 0x25) 0x0200 [0x18]) =
      some ((0x00, 0x00, 0x00, 0xFD, 0x24), 0x0201, false,
        [rd 0x0200 0x18, rd 0x0201 0x00]) := by
  decide

/-- SEC -/
theorem test_sec_1 :
    seen (start (0x00, 0x00, 0x00, 0xFD, 0x24) 0x0200 [0x38]) =
      some ((0x00, 0x00, 0x00, 0xFD, 0x25), 0x0201, false,
        [rd 0x0200 0x38, rd 0x0201 0x00]) := by
  decide

/-- CLI -/
theorem test_cli_1 :
    seen (start (0x00, 0x00, 0x00, 0xFD, 0x24) 0x0200 [0x58]) =
      some ((0x00, 0x00, 0x00, 0xFD, 0x20), 0x0201, false,
        [rd 0x0200 0x58, rd 0x0201 0x00]) := by
  decide

/-- SEI -/
theorem test_sei_1 :
    seen (start (0x00, 0x00, 0x00, 0xFD, 0x20) 0x0200 [0x78]) =
      some ((0x00, 0x00, 0x00, 0xFD, 0x24), 0x0201, false,
        [rd 0x0200 0x78, rd 0x0201 0x00]) := by
  decide

/-- CLV -/
theorem test_clv_1 :
    seen (start (0x00, 0x00, 0x00, 0xFD, 0x64) 0x0200 [0xB8]) =
      some ((0x00, 0x00, 0x00, 0xFD, 0x24), 0x0201, false,
        [rd 0x0200 0xB8, rd 0x0201 0x00]) := by
  decide

/-- CLD -/
theorem test_cld_1 :
    seen (start (0x00, 0x00, 0x00, 0xFD, 0x2C) 0x0200 [0xD8]) =
      some ((0x00, 0x00, 0x00, 0xFD, 0x24), 0x0201, false,
        [rd 0x0200 0xD8, rd 0x0201 0x00]) := by
  decide

/-- SED -/
theorem test_sed_1 :
    seen (start (0x00, 0x00, 0x00, 0xFD, 0x24) 0x0200 [0xF8]) =
      some ((0x00, 0x00, 0x00, 0xFD, 0x2C), 0x0201, false,
        [rd 0x0200 0xF8, rd 0x0201 0x00]) := by
  decide

/-- NOP $EA -/
theorem test_nop_1 :
    seen (start (0x00, 0x00, 0x00, 0xFD, 0x24) 0x0200 [0xEA]) =
      some ((0x00, 0x00, 0x00, 0xFD, 0x24), 0x0201, false,
        [rd 0x0200 0xEA, rd 0x0201 0x00]) := by
  decide

/-- SLO zpg -/
theorem test_sloZpg_1 :
    seen (start (0x10, 0x00, 0x00, 0xFD, 0x24) 0x0200 [0x07, 0x10] [(0x0010, 0x81)]) =
      some ((0x12, 0x00, 0x00, 0xFD, 0x25), 0x0202, false,
        [rd 0x0200 0x07, rd 0x0201 0x10, rd 0x0010 0x81, wr 0x0010 0x81, wr 0x0010 0x02]) := by
  decide

/-- RLA zpg -/
theorem test_rlaZpg_1 :
    seen (start (0xFF, 0x00, 0x00, 0xFD, 0x25) 0x0200 [0x27, 0x10] [(0x0010, 0x80)]) =
      some ((0x01, 0x00, 0x00, 0xFD, 0x25), 0x0202, false,
        [rd 0x0200 0x27, rd 0x0201 0x10, rd 0x0010 0x80, wr 0x0010 0x80, wr 0x0010 0x01]) := by
  decide

/-- SRE zpg -/
theorem test_sreZpg_1 :
    seen (start (0x01, 0x00, 0x00, 0xFD, 0x24) 0x0200 [0x47, 0x10] [(0x0010, 0x03)]) =
      some ((0x00, 0x00, 0x00, 0xFD, 0x27), 0x0202, false,
        [rd 0x0200 0x47, rd 0x0201 0x10, rd 0x0010 0x03, wr 0x0010 0x03, wr 0x0010 0x01]) := by
  decide

/-- RRA zpg: ror carry feeds adc -/
theorem test_rraZpg_1 :
    seen (start (0x10, 0x00, 0x00, 0xFD, 0x25) 0x0200 [0x67, 0x10] [(0x0010, 0x02)]) =
      some ((0x91, 0x00, 0x00, 0xFD, 0xA4), 0x0202, false,
        [rd 0x0200 0x67, rd 0x0201 0x10, rd 0x0010 0x02, wr 0x0010 0x02, wr 0x0010 0x81]) := by
  decide

/-- RRA zpg: carry out of ror is carry-in -/
theorem test_rraZpg_2 :
    seen (start (0x10, 0x00, 0x00, 0xFD, 0x24) 0x0200 [0x67, 0x10] [(0x0010, 0x03)]) =
      some ((0x12, 0x00, 0x00, 0xFD, 0x24), 0x0202, false,
        [rd 0x0200 0x67, rd 0x0201 0x10, rd 0x0010 0x03, wr 0x0010 0x03, wr 0x0010 0x01]) := by
  decide

/-- DCP zpg equal -/
theorem test_dcpZpg_1 :
    seen (start (0x10, 0x00, 0x00, 0xFD, 0x24) 0x0200 [0xC7, 0x10] [(0x0010, 0x11)]) =
      some ((0x10, 0x00, 0x00, 0xFD, 0x27), 0x0202, false,
        [rd 0x0200 0xC7, rd 0x0201 0x10, rd 0x0010 0x11, wr 0x0010 0x11, wr 0x0010 0x10]) := by
  decide

/-- DCP izy crossing: 8 accesses -/
theorem test_dcpIzy_1 :
    seen (start (0x00, 0x00, 0x20, 0xFD, 0x24) 0x0200 [0xD3, 0x10] [(0x0010, 0xF0), (0x0011, 0x04)]) =
      some ((0x00, 0x00, 0x20, 0xFD, 0x24), 0x0202, false,
        [rd 0x0200 0xD3, rd 0x0201 0x10, rd 0x0010 0xF0, rd 0x0011 0x04, rd 0x0410 0x00,
        rd 0x0510 0x00, wr 0x0510 0x00, wr 0x0510 0xFF]) := by
  decide

/-- ISC zpg $FF -/
theorem test_iscZpg_1 :
    seen (start (0x05, 0x00, 0x00, 0xFD, 0x25) 0x0200 [0xE7, 0x10] [(0x0010, 0xFF)]) =
      some ((0x05, 0x00, 0x00, 0xFD, 0x25), 0x0202, false,
        [rd 0x0200 0xE7, rd 0x0201 0x10, rd 0x0010 0xFF, wr 0x0010 0xFF, wr 0x0010 0x00]) := by
  decide

/-- SLO abx: 7 accesses, unconditional dummy read -/
theorem test_sloAbx_1 :
    seen (start (0x01, 0x01, 0x00, 0xFD, 0x24) 0x0200 [0x1F, 0xFF, 0x02] [(0x0300, 0x40)]) =
      some ((0x81, 0x01, 0x00, 0xFD, 0xA4), 0x0203, false,
        [rd 0x0200 0x1F, rd 0x0201 0xFF, rd 0x0202 0x02, rd 0x0200 0x1F, rd 0x0300 0x40,
        wr 0x0300 0x40, wr 0x0300 0x80]) := by
  decide

/-- SAX zpg -/
theorem test_saxZpg_1 :
    seen (start (0xF0, 0x3C, 0x00, 0xFD, 0x24) 0x0200 [0x87, 0x10]) =
      some ((0xF0, 0x3C, 0x00, 0xFD, 0x24), 0x0202, false,
        [rd 0x0200 0x87, rd 0x0201 0x10, wr 0x0010 0x30]) := by
  decide

/-- SAX zpy wraps -/
theorem test_saxZpy_1 :
    seen (start (0xFF, 0x0F, 0x01, 0xFD, 0x24) 0x0200 [0x97, 0xFF]) =
      some ((0xFF, 0x0F, 0x01, 0xFD, 0x24), 0x0202, false,
        [rd 0x0200 0x97, rd 0x0201 0xFF, rd 0x00FF 0x00, wr 0x0000 0x0F]) := by
  decide

/-- LAX zpg -/
theorem test_laxZpg_1 :
    seen (start (0x00, 0x00, 0x00, 0xFD, 0x24) 0x0200 [0xA7, 0x10] [(0x0010, 0x80)]) =
      some ((0x80, 0x80, 0x00, 0xFD, 0xA4), 0x0202, false,
        [rd 0x0200 0xA7, rd 0x0201 0x10, rd 0x0010 0x80]) := by
  decide

/-- LAX aby crossing -/
theorem test_laxAby_1 :
    seen (start (0x00, 0x00, 0x01, 0xFD, 0x24) 0x0200 [0xBF, 0xFF, 0x02] [(0x0300, 0x00)]) =
      some ((0x00, 0x00, 0x01, 0xFD, 0x26), 0x0203, false,
        [rd 0x0200 0xBF, rd 0x0201 0xFF, rd 0x0202 0x02, rd 0x0200 0xBF, rd 0x0300 0x00]) := by
  decide

/-- ANC $0B -/
theorem test_ancImm_1 :
    seen (start (0xFF, 0x00, 0x00, 0xFD, 0x24) 0x0200 [0x0B, 0x80]) =
      some ((0x80, 0x00, 0x00, 0xFD, 0xA5), 0x0202, false,
        [rd 0x0200 0x0B, rd 0x0201 0x80]) := by
  decide

/-- ANC $2B, positive result -/
theorem test_ancImm_2 :
    seen (start (0xFF, 0x00, 0x00, 0xFD, 0x25) 0x0200 [0x2B, 0x7F]) =
      some ((0x7F, 0x00, 0x00, 0xFD, 0x24), 0x0202, false,
        [rd 0x0200 0x2B, rd 0x0201 0x7F]) := by
  decide

/-- ALR -/
theorem test_alrImm_1 :
    seen (start (0xFF, 0x00, 0x00, 0xFD, 0x24) 0x0200 [0x4B, 0x03]) =
      some ((0x01, 0x00, 0x00, 0xFD, 0x25), 0x0202, false,
        [rd 0x0200 0x4B, rd 0x0201 0x03]) := by
  decide

/-- ARR -/
theorem test_arrImm_1 :
    seen (start (0xC0, 0x00, 0x00, 0xFD, 0x25) 0x0200 [0x6B, 0xFF]) =
      some ((0xE0, 0x00, 0x00, 0xFD, 0xA5), 0x0202, false,
        [rd 0x0200 0x6B, rd 0x0201 0xFF]) := by
  decide

/-- ARR: V from bits 6 and 5 -/
theorem test_arrImm_2 :
    seen (start (0x40, 0x00, 0x00, 0xFD, 0x24) 0x0200 [0x6B, 0xFF]) =
      some ((0x20, 0x00, 0x00, 0xFD, 0x64), 0x0202, false,
        [rd 0x0200 0x6B, rd 0x0201 0xFF]) := by
  decide

/-- ANE -/
theorem test_aneImm_1 :
    seen (start (0x00, 0xFF, 0x00, 0xFD, 0x24) 0x0200 [0x8B, 0xFF]) =
      some ((0xEE, 0xFF, 0x00, 0xFD, 0xA4), 0x0202, false,
        [rd 0x0200 0x8B, rd 0x0201 0xFF]) := by
  decide

/-- ANE keeps A bits 4 and 0 -/
theorem test_aneImm_2 :
    seen (start (0x11, 0xFF, 0x00, 0xFD, 0x24) 0x0200 [0x8B, 0xFF]) =
      some ((0xFF, 0xFF, 0x00, 0xFD, 0xA4), 0x0202, false,
        [rd 0x0200 0x8B, rd 0x0201 0xFF]) := by
  decide

/-- LXA -/
theorem test_lxaImm_1 :
    seen (start (0x00, 0x00, 0x00, 0xFD, 0x24) 0x0200 [0xAB, 0x0F]) =
      some ((0x0E, 0x0E, 0x00, 0xFD, 0x24), 0x0202, false,
        [rd 0x0200 0xAB, rd 0x0201 0x0F]) := by
  decide

/-- SBX no borrow -/
theorem test_sbxImm_1 :
    seen (start (0x0F, 0xF3, 0x00, 0xFD, 0x24) 0x0200 [0xCB, 0x02]) =
      some ((0x0F, 0x01, 0x00, 0xFD, 0x25), 0x0202, false,
        [rd 0x0200 0xCB, rd 0x0201 0x02]) := by
  decide

/-- SBX borrow -/
theorem test_sbxImm_2 :
    seen (start (0x0F, 0xF3, 0x00, 0xFD, 0x25) 0x0200 [0xCB, 0x05]) =
      some ((0x0F, 0xFE, 0x00, 0xFD, 0xA4), 0x0202, false,
        [rd 0x0200 0xCB, rd 0x0201 0x05]) := by
  decide

/-- LAS -/
theorem test_lasAby_1 :
    seen (start (0x00, 0x00, 0x00, 0xFD, 0x24) 0x0200 [0xBB, 0x00, 0x03] [(0x0300, 0x0F)]) =
      some ((0x0D, 0x0D, 0x00, 0x0D, 0x24), 0x0203, false,
        [rd 0x0200 0xBB, rd 0x0201 0x00, rd 0x0202 0x03, rd 0x0300 0x0F]) := by
  decide

/-- SHA aby no crossing -/
theorem test_shaAby_1 :
    seen (start (0xFF, 0xFF, 0x01, 0xFD, 0x24) 0x0200 [0x9F, 0x00, 0x03]) =
      some ((0xFF, 0xFF, 0x01, 0xFD, 0x24), 0x0203, false,
        [rd 0x0200 0x9F, rd 0x0201 0x00, rd 0x0202 0x03, rd 0x0301 0x00, wr 0x0301 0x04]) := by
  decide

/-- SHA izy crossing -/
theorem test_shaIzy_1 :
    seen (start (0xFF, 0x07, 0x02, 0xFD, 0x24) 0x0200 [0x93, 0x10] [(0x0010, 0xFF), (0x0011, 0x04)]) =
      some ((0xFF, 0x07, 0x02, 0xFD, 0x24), 0x0202, false,
        [rd 0x0200 0x93, rd 0x0201 0x10, rd 0x0010 0xFF, rd 0x0011 0x04, rd 0x0401 0x00,
        wr 0x0501 0x05]) := by
  decide

/-- SHX aby crossing: address high byte replaced -/
theorem test_shxAby_1 :
    seen (start (0x00, 0xF1, 0x01, 0xFD, 0x24) 0x0200 [0x9E, 0xFF, 0x03]) =
      some ((0x00, 0xF1, 0x01, 0xFD, 0x24), 0x0203, false,
        [rd 0x0200 0x9E, rd 0x0201 0xFF, rd 0x0202 0x03, rd 0x0300 0x00, wr 0x0000 0x00]) := by
  decide

/-- SHY abx -/
theorem test_shyAbx_1 :
    seen (start (0x00, 0x05, 0xFF, 0xFD, 0x24) 0x0200 [0x9C, 0x00, 0x10]) =
      some ((0x00, 0x05, 0xFF, 0xFD, 0x24), 0x0203, false,
        [rd 0x0200 0x9C, rd 0x0201 0x00, rd 0x0202 0x10, rd 0x1005 0x00, wr 0x1005 0x11]) := by
  decide

/-- TAS -/
theorem test_tasAby_1 :
    seen (start (0xF0, 0x3F, 0x00, 0xFD, 0x24) 0x0200 [0x9B, 0x00, 0x20]) =
      some ((0xF0, 0x3F, 0x00, 0x30, 0x24), 0x0203, false,
        [rd 0x0200 0x9B, rd 0x0201 0x00, rd 0x0202 0x20, rd 0x2000 0x00, wr 0x2000 0x20]) := by
  decide

/-- SBC $EB duplicate -/
theorem test_sbcImmEB_1 :
    seen (start (0x05, 0x00, 0x00, 0xFD, 0x25) 0x0200 [0xEB, 0x03]) =
      some ((0x02, 0x00, 0x00, 0xFD, 0x25), 0x0202, false,
        [rd 0x0200 0xEB, rd 0x0201 0x03]) := by
  decide

/-- NOP imm $80 -/
theorem test_nopImm_1 :
    seen (start (0x00, 0x00, 0x00, 0xFD, 0x24) 0x0200 [0x80, 0x12]) =
      some ((0x00, 0x00, 0x00, 0xFD, 0x24), 0x0202, false,
        [rd 0x0200 0x80, rd 0x0201 0x12]) := by
  decide

/-- NOP zpg $04 -/
theorem test_nopZpg_1 :
    seen (start (0x00, 0x00, 0x00, 0xFD, 0x24) 0x0200 [0x04, 0x12]) =
      some ((0x00, 0x00, 0x00, 0xFD, 0x24), 0x0202, false,
        [rd 0x0200 0x04, rd 0x0201 0x12, rd 0x0012 0x00]) := by
  decide

/-- NOP zpx $14 -/
theorem test_nopZpx_1 :
    seen (start (0x00, 0x03, 0x00, 0xFD, 0x24) 0x0200 [0x14, 0x12]) =
      some ((0x00, 0x03, 0x00, 0xFD, 0x24), 0x0202, false,
        [rd 0x0200 0x14, rd 0x0201 0x12, rd 0x0012 0x00, rd 0x0015 0x00]) := by
  decide

/-- NOP abs $0C -/
theorem test_nopAbs_1 :
    seen (start (0x00, 0x00, 0x00, 0xFD, 0x24) 0x0200 [0x0C, 0x34, 0x12]) =
      some ((0x00, 0x00, 0x00, 0xFD, 0x24), 0x0203, false,
        [rd 0x0200 0x0C, rd 0x0201 0x34, rd 0x0202 0x12, rd 0x1234 0x00]) := by
  decide

/-- NOP abx $1C crossing -/
theorem test_nopAbx_1 :
    seen (start (0x00, 0x01, 0x00, 0xFD, 0x24) 0x0200 [0x1C, 0xFF, 0x02]) =
      some ((0x00, 0x01, 0x00, 0xFD, 0x24), 0x0203, false,
        [rd 0x0200 0x1C, rd 0x0201 0xFF, rd 0x0202 0x02, rd 0x0200 0x1C, rd 0x0300 0x00]) := by
  decide

/-- NOP imp $1A -/
theorem test_nopImp_1 :
    seen (start (0x00, 0x00, 0x00, 0xFD, 0x24) 0x0200 [0x1A]) =
      some ((0x00, 0x00, 0x00, 0xFD, 0x24), 0x0201, false,
        [rd 0x0200 0x1A, rd 0x0201 0x00]) := by
  decide

/-- STP $02 -/
theorem test_stp_1 :
    seen (start (0x00, 0x00, 0x00, 0xFD, 0x24) 0x0200 [0x02]) =
      some ((0x00, 0x00, 0x00, 0xFD, 0x24), 0x0201, true,
        [rd 0x0200 0x02, rd 0x0201 0x00]) := by
  decide

/-- STP $F2 -/
theorem test_stp_2 :
    seen (start (0x00, 0x00, 0x00, 0xFD, 0x24) 0xFFFF [0xF2]) =
      some ((0x00, 0x00, 0x00, 0xFD, 0x24), 0x0000, true,
        [rd 0xFFFF 0xF2, rd 0x0000 0x00]) := by
  decide

/-- NMI service (§8 scenario 6), vector $9000 -/
theorem test_pending_nmi_1 :
    seen { start (0x00, 0x00, 0x00, 0xFD, 0x24) 0x1234 [0xEA] [(0xFFFA, 0x00), (0xFFFB, 0x90)] with pendingNmi := true } =
      some ((0x00, 0x00, 0x00, 0xFA, 0x24), 0x9000, false,
        [rd 0x1234 0xEA, rd 0x1234 0xEA, wr 0x01FD 0x12, wr 0x01FC 0x34, wr 0x01FB 0x24,
        rd 0xFFFA 0x00, rd 0xFFFB 0x90]) := by
  decide

/-- IRQ service with I=0 -/
theorem test_pending_irq_1 :
    seen { start (0x00, 0x00, 0x00, 0xFD, 0xA0) 0x1234 [0xEA] [(0xFFFE, 0x00), (0xFFFF, 0xA0)] with pendingIrq := true } =
      some ((0x00, 0x00, 0x00, 0xFA, 0xA4), 0xA000, false,
        [rd 0x1234 0xEA, rd 0x1234 0xEA, wr 0x01FD 0x12, wr 0x01FC 0x34, wr 0x01FB 0xA0,
        rd 0xFFFE 0x00, rd 0xFFFF 0xA0]) := by
  decide

/-- IRQ masked by I=1: the instruction runs -/
theorem test_pending_irq_2 :
    seen { start (0x00, 0x00, 0x00, 0xFD, 0x24) 0x1234 [0xEA] with pendingIrq := true } =
      some ((0x00, 0x00, 0x00, 0xFD, 0x24), 0x1235, false,
        [rd 0x1234 0xEA, rd 0x1235 0x00]) := by
  decide

/-- NMI wins over IRQ -/
theorem test_pending_nmi_pending_irq_1 :
    seen { start (0x00, 0x00, 0x00, 0xFD, 0x20) 0x1234 [0xEA] [(0xFFFA, 0x00), (0xFFFB, 0x90), (0xFFFE, 0x00), (0xFFFF, 0xA0)] with pendingNmi := true, pendingIrq := true } =
      some ((0x00, 0x00, 0x00, 0xFA, 0x24), 0x9000, false,
        [rd 0x1234 0xEA, rd 0x1234 0xEA, wr 0x01FD 0x12, wr 0x01FC 0x34, wr 0x01FB 0x20,
        rd 0xFFFA 0x00, rd 0xFFFB 0x90]) := by
  decide

/-- NMI ignores I -/
theorem test_pending_nmi_2 :
    seen { start (0x00, 0x00, 0x00, 0x01, 0x24) 0x1234 [0xEA] [(0xFFFA, 0x00), (0xFFFB, 0x90)] with pendingNmi := true } =
      some ((0x00, 0x00, 0x00, 0xFE, 0x24), 0x9000, false,
        [rd 0x1234 0xEA, rd 0x1234 0xEA, wr 0x0101 0x12, wr 0x0100 0x34, wr 0x01FF 0x24,
        rd 0xFFFA 0x00, rd 0xFFFB 0x90]) := by
  decide

/-- halted: nothing happens, step returns 0 -/
theorem test_halted_pending_nmi_1 :
    seen { start (0x00, 0x00, 0x00, 0xFD, 0x24) 0x0200 [0xEA] with halted := true, pendingNmi := true } =
      some ((0x00, 0x00, 0x00, 0xFD, 0x24), 0x0200, true,
        []) := by
  decide

/-! ### The outside world's answers (R52, R56) -/

/-- BIT of a device register whose read answers $C0 while plain memory holds $00: the third read is answered by the
outside world. -/
theorem test_bus_answer_reaches_bit :
    (match step { start (0x00, 0x00, 0x00, 0xFD, 0x24) 0x0200 [0x2C, 0x02, 0x20] with
        busInput := [none, none, none, some 0xC0] } with
      | .next t => some (t.p, t.busInput, t.log)
      | _ => none) =
      some (0xE6, [], [rd 0x0200 0x2C, rd 0x0201 0x02, rd 0x0202 0x20, rd 0x2002 0xC0]) := by
  decide

/-- The fetch comes from the outside world too: LDA #$42 where plain memory holds nothing. -/
theorem test_bus_answers_are_fetched :
    (match step { start (0x00, 0x00, 0x00, 0xFD, 0x24) 0x0200 [] with
        busInput := [some 0xA9, some 0x42, some 0x99] } with
      | .next t => some (t.a, t.pc, t.busInput)
      | _ => none) =
      some (0x42, 0x0202, [some 0x99]) := by
  decide

/-- JSR whose pushes overwrite its own third byte reads the overwritten one (R66, R311). -/
theorem test_jsr_reads_its_third_byte_after_the_pushes :
    seen (start (0x00, 0x00, 0x00, 0xFD, 0x24) 0x01FB [0x20, 0x34, 0x12]) =
      some ((0x00, 0x00, 0x00, 0xFB, 0x24), 0x0134, false,
        [rd 0x01FB 0x20, rd 0x01FC 0x34, rd 0x01FD 0x12, wr 0x01FD 0x01, wr 0x01FC 0xFD,
          rd 0x01FD 0x01]) := by
  decide

/-! ### States that meet the hypotheses of the obligations

Each theorem shows that the hypotheses of one obligation, or of one clause of it, are met together. -/

/-- A state with LDA #$05 across the top of the address space: the operand stands at $0000. -/
def atTop : State := start (0x00, 0x00, 0x00, 0xFD, 0x24) 0xFFFF [0xA9, 0x05]

theorem test_hyp_EncodingADecodedInstructionGivesItsBytesBack :
    decode [0xA9#8, 0x05#8, 0x77#8] = .ok (.ldaImm 0x05#8, [0x77#8]) := by rfl

theorem test_hyp_WellFormedByteListsAreTheEncodings_last_opcode :
    wellFormed [0xFF, 0xFF, 0xFF] = true := by decide

theorem test_hyp_EveryOpcodeByteDecodes :
    decodeBytes 0xEA#8 0x00#8 0x00#8 = decodeBytes 0xEA#8 0x12#8 0x34#8 := by rfl

theorem test_hyp_StepRunsTheDecodedInstruction :
    RunsInstruction atTop ∧ decode (bytesAtPc atTop) = .ok (.ldaImm 0x05#8, [0x00#8]) :=
  ⟨⟨rfl, rfl, fun h => absurd h (by decide)⟩, by rfl⟩

/-- The last clause of `RunsInstruction`: an IRQ is asserted and I masks it. -/
theorem test_hyp_StepRunsTheDecodedInstruction_masked_irq :
    RunsInstruction { atTop with pendingIrq := true } ∧
      decode (bytesAtPc { atTop with pendingIrq := true }) = .ok (.ldaImm 0x05#8, [0x00#8]) :=
  ⟨⟨rfl, rfl, fun _ => by decide⟩, by rfl⟩

theorem test_hyp_StepRunsTheInstructionStandingInMemory :
    RunsInstruction atTop ∧ PlainBus atTop ∧
      ∀ k (h : k < (encode (.ldaImm 0x05#8)).length),
        atTop.byteAt (atTop.pc + addrOf k) = (encode (.ldaImm 0x05#8))[k] :=
  ⟨⟨rfl, rfl, fun h => absurd h (by decide)⟩, rfl, by decide⟩

theorem test_hyp_HaltedStepDoesNothing :
    ({ atTop with halted := true, pendingNmi := true, pendingIrq := true } : State).halted = true := rfl

theorem test_hyp_NmiIsServicedFirst :
    let s : State := { atTop with pendingNmi := true, pendingIrq := true, p := 0x30 }
    s.halted = false ∧ s.pendingNmi = true := ⟨rfl, rfl⟩

theorem test_hyp_IrqIsServicedWhenNotMasked :
    let s : State := { atTop with pendingIrq := true, p := 0x30 }
    s.halted = false ∧ s.pendingNmi = false ∧ s.pendingIrq = true ∧ getFlag .i s.p = false :=
  ⟨rfl, rfl, rfl, by decide⟩

/-- A step that services an NMI, for the statements whose hypothesis is that a step answers a next state:
OnlyServiceTouchesTheLatches, OnlyStpHalts, NothingWritesBAndU, EveryTransitionKeepsTheInvariant. -/
theorem test_hyp_a_step_that_services :
    let s : State := { atTop with pendingNmi := true, pendingIrq := true }
    s.halted = false ∧ Invariant s ∧ ∃ t, step s = .next t := ⟨rfl, by unfold Invariant; decide, _, rfl⟩

/-- A step that halts: the right side of OnlyStpHalts, at the last of its opcodes. -/
theorem test_hyp_OnlyStpHalts :
    let s : State := start (0x00, 0x00, 0x00, 0xFD, 0x24) 0x0200 [0xF2]
    s.halted = false ∧ ∃ t, step s = .next t ∧ t.halted = true ∧ s.answerAt 0 s.pc = 0xF2#8 :=
  ⟨rfl, _, rfl, rfl, by decide⟩

/-- A halted step: the other case of OnlyServiceTouchesTheLatches. -/
theorem test_hyp_OnlyServiceTouchesTheLatches_halted :
    ∃ t, step { atTop with halted := true, pendingNmi := true } = .next t ∧ t.pendingNmi = true :=
  ⟨_, rfl, rfl⟩

/-- A meaning that answers a next state: the second clause of OnlyServiceTouchesTheLatches. -/
theorem test_hyp_OnlyServiceTouchesTheLatches_exec : ∃ t, exec .rti atTop = .next t := ⟨_, rfl⟩

theorem test_hyp_EveryTransitionKeepsTheInvariant : Invariant atTop := by unfold Invariant; decide

theorem test_hyp_StackPointerWrapsInPageOne :
    (start (0x00, 0x00, 0x00, 0x00, 0x24) 0x0200 []).sp = 0x00#8 ∧
      (start (0x00, 0x00, 0x00, 0xFF, 0x24) 0x0200 []).sp = 0xFF#8 ∧
      (List.replicate 256 (0x5A#8 : Byte)).length = 256 := ⟨rfl, rfl, List.length_replicate⟩

theorem test_hyp_AReadReturnsTheLastWrite :
    PlainBus atTop ∧ (0xFFFF#16 ≠ 0x0000#16) ∧
      ({ atTop with busInput := [some 0xC0#8, none] } : State).busInput = some 0xC0#8 :: [none] :=
  ⟨rfl, by decide, rfl⟩

/-- Canonical memories, at both ends of the address space. -/
theorem test_hyp_CanonicalMemoriesThatReadAlikeAreEqual :
    Memory.wf [(0, 0x05#8), (65535, 0xA9#8)] = true ∧ Memory.wf [(65536, 0x05#8)] = false ∧
      Memory.wf [(5, 0x00#8)] = false ∧ Memory.wf [(5, 0x01#8), (5, 0x02#8)] = false := by decide

/-- The two clauses of the crossing in each discipline, at the two index sums where they meet ($FF and $100): the
crossing, and how many dummy reads are made. -/
theorem test_hyp_PageCrossingIsTheCarryOutOfTheLowByte :
    let made := fun ll d =>
      let r := resolveIndexed 0x12 ll 0x01 d { atTop with log := [] }
      (r.1.cross, r.2.log.length)
    made 0xFE .read = (false, 0) ∧ made 0xFF .read = (true, 1) ∧
      made 0xFE .write = (false, 1) ∧ made 0xFF .write = (true, 1) ∧
      made 0xFE .rmw = (false, 1) ∧ made 0xFF .rmw = (true, 1) ∧
      (resolveIndexed 0xFF 0xFF 0x01 .write atTop).1.ea = 0x0000#16 := by decide

/-- A body that leaves the log alone, which every read-modify-write meaning's does. -/
theorem test_hyp_PageCrossingIsTheCarryOutOfTheLowByte_body :
    ∀ v t, (aluBody incAlu v t).2.log = t.log := fun _ _ => rfl

/-- Every list of forms has a member. -/
theorem test_hyp_forms :
    (.ldaImm 1, .imm 1) ∈ ldaForms 1 2 3 ∧ (.ldxAby 2 3, .mem (.aby 2 3)) ∈ ldxForms 1 2 3 ∧
      (.ldyAbx 2 3, .mem (.abx 2 3)) ∈ ldyForms 1 2 3 ∧ (.laxIzy 1, .mem (.izy 1)) ∈ laxForms 1 2 3 ∧
      (.adcImm 1, .imm 1) ∈ adcForms 1 2 3 ∧ (.sbcImmEB 1, .imm 1) ∈ sbcForms 1 2 3 ∧
      (.andIzx 1, .mem (.izx 1)) ∈ andForms 1 2 3 ∧ (.oraZpx 1, .mem (.zpx 1)) ∈ oraForms 1 2 3 ∧
      (.eorZpg 1, .mem (.zpg 1)) ∈ eorForms 1 2 3 ∧ (.bitAbs 2 3, .mem (.abs 2 3)) ∈ bitForms 1 2 3 ∧
      (.cmpAbx 2 3, .mem (.abx 2 3)) ∈ cmpForms 1 2 3 ∧ (.cpxImm 1, .imm 1) ∈ cpxForms 1 2 3 ∧
      (.cpyImm 1, .imm 1) ∈ cpyForms 1 2 3 ∧ (.staAbx 2 3, .abx 2 3) ∈ staForms 1 2 3 ∧
      (.stxZpy 1, .zpy 1) ∈ stxForms 1 2 3 ∧ (.styZpx 1, .zpx 1) ∈ styForms 1 2 3 ∧
      (.saxIzx 1, .izx 1) ∈ saxForms 1 2 3 ∧ (.iscIzy 1, .izy 1) ∈ rmwForms 1 2 3 ∧
      (.nopImm .x80 1, .imm 1) ∈ nopForms .x80 .x04 .x14 .x1C 1 2 3 := by
  and_intros <;> decide

/-- The read-modify-write lists. -/
theorem test_hyp_rmw_forms :
    (.aslZpg 1, .zpg 1) ∈ aslForms 1 2 3 ∧ (.lsrAbs 2 3, .abs 2 3) ∈ lsrForms 1 2 3 ∧
      (.rolZpx 1, .zpx 1) ∈ rolForms 1 2 3 ∧ (.rorAbx 2 3, .abx 2 3) ∈ rorForms 1 2 3 ∧
      (.incZpg 1, .zpg 1) ∈ incForms 1 2 3 ∧ (.decZpg 1, .zpg 1) ∈ decForms 1 2 3 ∧
      (.sloIzx 1, .izx 1) ∈ sloForms 1 2 3 ∧ (.rlaIzy 1, .izy 1) ∈ rlaForms 1 2 3 ∧
      (.sreAby 2 3, .aby 2 3) ∈ sreForms 1 2 3 ∧ (.rraZpg 1, .zpg 1) ∈ rraForms 1 2 3 ∧
      (.dcpAbs 2 3, .abs 2 3) ∈ dcpForms 1 2 3 ∧ (.iscZpx 1, .zpx 1) ∈ iscForms 1 2 3 := by
  and_intros <;> decide

theorem test_hyp_DecimalFlagDoesNotChangeAdcAndSbc :
    (.sbcImm 1, .imm 1) ∈ adcForms 1 2 3 ++ sbcForms 1 2 3 := by decide

/-- The three outcomes of a branch, from one displacement: not taken, taken within the page, taken to another page.
The two targets are $02FF and $0300, where the clauses meet. -/
theorem test_hyp_BranchesTestOneFlag :
    seen (start (0x00, 0x00, 0x00, 0xFD, 0x26) 0x0280 [0xD0, 0x7D]) =
        some ((0x00, 0x00, 0x00, 0xFD, 0x26), 0x0282, false, [rd 0x0280 0xD0, rd 0x0281 0x7D]) ∧
      seen (start (0x00, 0x00, 0x00, 0xFD, 0x24) 0x0280 [0xD0, 0x7D]) =
        some ((0x00, 0x00, 0x00, 0xFD, 0x24), 0x02FF, false,
          [rd 0x0280 0xD0, rd 0x0281 0x7D, rd 0x0282 0x00]) ∧
      seen (start (0x00, 0x00, 0x00, 0xFD, 0x24) 0x0280 [0xD0, 0x7E]) =
        some ((0x00, 0x00, 0x00, 0xFD, 0x24), 0x0300, false,
          [rd 0x0280 0xD0, rd 0x0281 0x7E, rd 0x0282 0x00, rd 0x0200 0x00]) := by
  and_intros <;> decide

theorem test_hyp_BranchesTestOneFlag_forms :
    (Instr.beq 0x7D#8, Flag.z, true) ∈ branchForms 0x7D#8 := by decide

theorem test_hyp_RtsReturnsPastTheCall : PlainBus atTop := rfl

/-- The state of a handler that changed memory outside the stack, PC, A and two flags. -/
def handlerState (e : State) : State :=
  { busWrite 0x0300 0x77 e with pc := 0x1234, a := 0x55, p := e.p ||| 0x81#8 }

/-- Handler states after an NMI, an IRQ and a BRK: one byte differs from the entry, the stack does not. -/
theorem test_hyp_RtiUndoesAnInterruptEntry :
    let s : State := { atTop with p := 0x30 }
    ∀ e ∈ [service .nmi s, service .irq s, softwareInterrupt s],
      PlainBus (handlerState e) ∧ StackLeftAlone e (handlerState e) ∧
        (handlerState e).byteAt 0x0300 ≠ e.byteAt 0x0300 := by
  intro s e he
  simp only [List.mem_cons, List.not_mem_nil, or_false] at he
  rcases he with rfl | rfl | rfl
  all_goals
    refine ⟨rfl, ⟨rfl, fun k h1 h2 => ?_, by decide, by decide⟩, by decide⟩
    have : k = 1 ∨ k = 2 ∨ k = 3 := by omega
    rcases this with rfl | rfl | rfl <;> decide

theorem test_hyp_RtiUndoesAnInterruptEntry_brk :
    exec .brk { atTop with p := 0x30 } = .next (softwareInterrupt { atTop with p := 0x30 }) := rfl

theorem test_hyp_PushesWriteOneStackByte :
    (Instr.php, atTop.p ||| 0x30#8) ∈ [(Instr.pha, atTop.a), (.php, atTop.p ||| 0x30#8)] := by decide

theorem test_hyp_FlagInstructionsWriteOneFlag :
    (Instr.cli, Flag.i, false) ∈
      [(Instr.clc, Flag.c, false), (.sec, .c, true), (.cli, .i, false), (.sei, .i, true),
        (.clv, .v, false), (.cld, .d, false), (.sed, .d, true)] := by decide

theorem test_hyp_NopsChangeOnlyPc : Instr.nopImp .xFA ∈ [Instr.nop, .nopImp .xFA] := by decide

/-- The two clauses of the stored address, at the index sums where they meet: SHX $12FE,Y and $12FF,Y with
Y = 1, X = $FF. -/
theorem test_hyp_HighByteStores :
    seen (start (0x00, 0xFF, 0x01, 0xFD, 0x24) 0x0200 [0x9E, 0xFE, 0x12]) =
        some ((0x00, 0xFF, 0x01, 0xFD, 0x24), 0x0203, false,
          [rd 0x0200 0x9E, rd 0x0201 0xFE, rd 0x0202 0x12, rd 0x12FF 0x00, wr 0x12FF 0x13]) ∧
      seen (start (0x00, 0x05, 0x01, 0xFD, 0x24) 0x0200 [0x9E, 0xFF, 0x12]) =
        some ((0x00, 0x05, 0x01, 0xFD, 0x24), 0x0203, false,
          [rd 0x0200 0x9E, rd 0x0201 0xFF, rd 0x0202 0x12, rd 0x1200 0x00, wr 0x0100 0x01]) := by
  and_intros <;> decide

end Sys2Proof.Tests
end

section
/-! SUPPORT. The status helpers against their rules (R100 to R102): settles O21. -/

namespace Sys2Proof.Machine

/-- Bit 7 as the mask test of R100. -/
theorem bit7_eq_mask (v : Byte) : v.getLsbD 7 = decide (v &&& 0x80#8 ≠ 0) := by
  have hmask : v &&& 0x80#8 = if v.getLsbD 7 then 0x80#8 else 0#8 := BitVec.and_twoPow v 7
  rw [hmask]
  cases v.getLsbD 7 <;> rfl

end Sys2Proof.Machine

namespace Sys2Proof

open Machine

/-- Settles O21: each helper's flag reader, one flag at a time; the byte formulas are the helpers' own. -/
theorem statusHelpersWriteTheirBits : Obligations.StatusHelpersWriteTheirBits := by
  refine ⟨fun v p f => ?_, fun b p f => ?_, fun p => ⟨rfl, rfl⟩, fun v p f => ?_, fun v p => rfl⟩
  · rw [getFlag_setNz, bit7_eq_mask]
    cases f <;> simp [beq_eq_decide]
  · rw [getFlag_pushRepr]
    cases f <;> simp
  · rw [getFlag_pullRepr]
    cases f <;> simp

end Sys2Proof
end

section
/-! SUPPORT. D and the adder: setting D before ADC or SBC is setting it after (R114); settles O31. -/

namespace Sys2Proof.Machine

/-- The state with D set to `d` and every other flag and field as it was. -/
def State.withDecimal (d : Bool) (s : State) : State := { s with p := setFlag .d d s.p }

/-- The adder hands D on and does not read it (R103, R114). -/
theorem adcAlu_setDecimal (a val : Byte) (d : Bool) (p : Byte) :
    adcAlu a val (setFlag .d d p) = ((adcAlu a val p).1, setFlag .d d (adcAlu a val p).2) := by
  have hcarry : carryIn (setFlag .d d p) = carryIn p := by simp [carryIn]
  have hsum : (adcAlu a val (setFlag .d d p)).1 = (adcAlu a val p).1 := by simp only [adcAlu, hcarry]
  refine Prod.ext hsum (status_ext fun f => ?_)
  rw [getFlag_adcAlu, hsum, hcarry]
  cases f <;> simp

/-- ADC's body commutes with setting D. -/
theorem adc_withDecimal (val : Byte) (d : Bool) (s : State) :
    adc val (s.withDecimal d) = (adc val s).withDecimal d := by
  simp [adc, State.withDecimal, adcAlu_setDecimal]

/-- SBC's body commutes with setting D: it is ADC's on the complement (R104). -/
theorem sbc_withDecimal (val : Byte) (d : Bool) (s : State) :
    sbc val (s.withDecimal d) = (sbc val s).withDecimal d :=
  adc_withDecimal (val ^^^ 0xFF) d s

/-- No addressing mode looks at D: the operand byte is the same. -/
theorem operandByte_withDecimal (o : Operand) (d : Bool) (s : State) :
    operandByte o (s.withDecimal d) = operandByte o s := by
  cases o with
  | imm nn => rfl
  | mem m => cases m <;> rfl

/-- No addressing mode looks at D: the accesses are the same. -/
theorem operandAccesses_withDecimal (o : Operand) (d : Bool) (s : State) :
    operandAccesses o (s.withDecimal d) = operandAccesses o s := by
  cases o with
  | imm nn => rfl
  | mem m => cases m <;> rfl

/-- An instruction of the read discipline commutes with setting D when its body does. -/
theorem executeRead_withDecimal (o : Operand) (body : Byte → State → State) (d : Bool) (s : State)
    (hbody : ∀ val s', body val (s'.withDecimal d) = (body val s').withDecimal d) :
    executeRead o body (s.withDecimal d) = (executeRead o body s).withDecimal d := by
  rw [executeRead_eq, executeRead_eq, operandByte_withDecimal, operandAccesses_withDecimal,
    ← hbody]
  rfl

/-- Every form of ADC and SBC runs, and setting D before it is setting D after it: no field but P, and
no flag but D, tells the two runs apart. -/
theorem exec_adcSbcForms_withDecimal (nn ll hh : Byte) (d : Bool) (s : State) :
    ∀ f ∈ adcForms nn ll hh ++ sbcForms nn ll hh,
      ∃ t, exec f.1 s = .next t ∧ exec f.1 (s.withDecimal d) = .next (t.withDecimal d) := by
  intro f hf
  rcases List.mem_append.mp hf with hadc | hsbc
  · refine ⟨executeRead f.2 adc s, exec_adcForms nn ll hh s f hadc, ?_⟩
    rw [exec_adcForms nn ll hh _ f hadc,
      executeRead_withDecimal f.2 adc d s fun val s' => adc_withDecimal val d s']
  · refine ⟨executeRead f.2 sbc s, exec_sbcForms nn ll hh s f hsbc, ?_⟩
    rw [exec_sbcForms nn ll hh _ f hsbc,
      executeRead_withDecimal f.2 sbc d s fun val s' => sbc_withDecimal val d s']

end Sys2Proof.Machine

namespace Sys2Proof

open Machine

/-- Settles O31: the run with D set to `d` ends where the other run ends, with D set to `d` there. -/
theorem decimalFlagDoesNotChangeAdcAndSbc : Obligations.DecimalFlagDoesNotChangeAdcAndSbc := by
  intro nn ll hh s d f hf
  obtain ⟨t, hrun, hrunD⟩ := exec_adcSbcForms_withDecimal nn ll hh d s f hf
  refine ⟨t, t.withDecimal d, hrun, hrunD, rfl, ?_, fun g hg => ?_⟩
  · simp [State.withDecimal]
  · simp [State.withDecimal, hg]

end Sys2Proof
end

section
/-! SUPPORT. The index sum of abx, aby and izy against its un-fixed address (R134), the resolver's dummy
read there (R135, R136), and the access that follows the resolver's in each executor; settles O25. -/

namespace Sys2Proof.Machine

/-! ### The index sum (R134) -/

theorem crosses_iff (ll i : Byte) : crosses ll i = true ↔ 256 ≤ ll.toNat + i.toNat :=
  decide_eq_true_iff

@[simp] theorem resolveIndexed_cross (hh ll i : Byte) (d : Discipline) (s : State) :
    (resolveIndexed hh ll i d s).1.cross = crosses ll i := crosses_eq ll i

/-- The un-fixed address stays on the base's page. -/
@[simp] theorem hiByte_unfixed (hh ll i : Byte) : hiByte (unfixed hh ll i) = hh := by
  have := hh.isLt
  apply BitVec.eq_of_toNat_eq
  rw [hiByte_toNat, unfixed, addrOf_toNat]
  omega

/-- One page further is another page, the wrap from page $FF to page $00 included. -/
theorem hiByte_ne_hiByte_add_page (w : Word) : hiByte w ≠ hiByte (w + 0x0100#16) := by
  intro h
  have hnum := congrArg BitVec.toNat h
  rw [hiByte_toNat, hiByte_toNat, BitVec.toNat_add, BitVec.toNat_ofNat] at hnum
  have := w.isLt
  omega

/-- With a carry out of the low byte the effective address is one page past the un-fixed one. -/
theorem resolveIndexed_ea_of_crosses {ll i : Byte} (h : crosses ll i = true) (hh : Byte)
    (d : Discipline) (s : State) :
    (resolveIndexed hh ll i d s).1.ea = unfixed hh ll i + 0x0100#16 := by
  have := ll.isLt
  have := i.isLt
  rw [crosses_iff] at h
  rw [resolveIndexed_ea, unfixed]
  apply BitVec.eq_of_toNat_eq
  rw [BitVec.toNat_add, addrOf_toNat, addrOf_toNat, BitVec.toNat_ofNat]
  omega

/-- Without a carry the effective address is the un-fixed one. -/
theorem resolveIndexed_ea_of_not_crosses {ll i : Byte} (h : crosses ll i = false) (hh : Byte)
    (d : Discipline) (s : State) : (resolveIndexed hh ll i d s).1.ea = unfixed hh ll i := by
  have hsum : ll.toNat + i.toNat < 256 := by
    rwa [← Bool.not_eq_true, crosses_iff, Nat.not_le] at h
  have := hh.isLt
  rw [resolveIndexed_ea, unfixed]
  congr 1
  omega

/-- The sum carries exactly when base and effective address lie on different pages. -/
theorem crosses_iff_hiByte_ne (hh ll i : Byte) (d : Discipline) (s : State) :
    crosses ll i = true ↔ hh ≠ hiByte (resolveIndexed hh ll i d s).1.ea := by
  cases h : crosses ll i with
  | true =>
    have hpage := hiByte_ne_hiByte_add_page (unfixed hh ll i)
    rw [hiByte_unfixed] at hpage
    simpa [resolveIndexed_ea_of_crosses h] using hpage
  | false => simp [resolveIndexed_ea_of_not_crosses h]

/-! ### The dummy read at the un-fixed address (R135, R136) -/

theorem resolveIndexed_state_read (hh ll i : Byte) (s : State) :
    (resolveIndexed hh ll i .read s).2 =
      if crosses ll i then dummyRead (unfixed hh ll i) s else s := by
  simp [resolveIndexed, crosses_eq, word_unfixed]

theorem resolveIndexed_state_of_ne_read {d : Discipline} (hd : d ≠ .read) (hh ll i : Byte)
    (s : State) : (resolveIndexed hh ll i d s).2 = dummyRead (unfixed hh ll i) s := by
  simp [resolveIndexed, hd, word_unfixed]

/-! ### The base of each mode -/

/-- The base and the index of izy: the two pointer bytes read from page $00, and Y. -/
theorem resolve_izy_eq_resolveIndexed (nn : Byte) (s : State) :
    ∃ u lo hi, (∀ d, resolve (.izy nn) d s = resolveIndexed hi lo s.y d u) ∧
      u.log = s.log ++
        [rd s.pc nn, rd (addrOf nn.toNat) lo, rd (addrOf ((nn.toNat + 1) % 256)) hi] := by
  refine ⟨_, _, _, fun d => rfl, ?_⟩
  simp [rd, zext16_eq, BitVec.toNat_add]

/-! ### The access after the resolver's, in each executor (R139, R140) -/

theorem readOperand_mem_log (m : MemOperand) (s : State) :
    (readOperand (.mem m) s).2.log =
      (resolve m .read s).2.log ++ [rd (effAddr m s) (memByte m .read s)] := by
  simp [readOperand_eq, resolve_state, operandAccesses]

theorem executeWrite_log (m : MemOperand) (body : State → Byte) (s : State) :
    (executeWrite m body s).log =
      (resolve m .write s).2.log ++ [wr (effAddr m s) (body (resolve m .write s).2)] := by
  simp [executeWrite, resolve_ea, wr]

/-- The three accesses of a read-modify-write whose body makes none. -/
theorem executeRmw_log (m : MemOperand) (body : Byte → State → Byte × State) (s : State)
    (hbody : ∀ v t, (body v t).2.log = t.log) :
    ∃ r, (executeRmw m body s).log = (resolve m .rmw s).2.log ++
      [rd (effAddr m s) (memByte m .rmw s), wr (effAddr m s) (memByte m .rmw s),
        wr (effAddr m s) r] := by
  simp [executeRmw_eq, hbody, resolve_state, rd, wr]

theorem executeHighStore_log (m : MemOperand) (reg : State → Byte) (s : State) :
    ∃ a v, (executeHighStore m reg s).log = (resolve m .write s).2.log ++ [wr a v] :=
  ⟨_, _, rfl⟩

end Sys2Proof.Machine

namespace Sys2Proof

open Machine

/-- Settles O25: the effective address is the un-fixed one plus $100 on a crossing and itself otherwise,
so the page tells the crossing; the rest is the resolver's and the executors' logs. -/
theorem pageCrossingIsTheCarryOutOfTheLowByte :
    Obligations.PageCrossingIsTheCarryOutOfTheLowByte := by
  refine ⟨fun hh ll i d s => ?_, fun nn ll hh s => ?_, fun m s => ?_⟩
  · simp only [resolveIndexed_cross]
    refine ⟨crosses_iff ll i, crosses_iff_hiByte_ne hh ll i d s, fun h => ?_, fun h => ?_, ?_,
      fun hd => resolveIndexed_state_of_ne_read hd hh ll i s⟩
    · rw [resolveIndexed_ea_of_crosses h, BitVec.add_sub_cancel]
    · rw [resolveIndexed_ea_of_not_crosses h]
    · rintro rfl
      exact resolveIndexed_state_read hh ll i s
  · obtain ⟨u, lo, hi, hizy, hlog⟩ := resolve_izy_eq_resolveIndexed nn s
    have hfetch : (fetchOperand hh (fetchOperand ll s)).log =
        s.log ++ [rd s.pc ll, rd (s.pc + 1) hh] := by simp [rd]
    exact ⟨_, u, lo, hi, fun d => ⟨rfl, rfl, hfetch, hizy d, hlog⟩⟩
  · exact ⟨readOperand_mem_log m s, fun body => ⟨_, executeWrite_log m body s⟩,
      fun body => executeRmw_log m body s, fun reg => executeHighStore_log m reg s⟩

end Sys2Proof
end

section
/-! SUPPORT. The same-page successor of JMP indirect's pointer as masks, and the jump's final state (R310);
settles O42. -/

namespace Sys2Proof.Machine

/-! ### The pointer's second byte stays in the pointer's page -/

/-- The high-byte mask and the low-byte mask together take one byte of each word. -/
theorem maskHigh_or_maskLow (v w : Word) :
    (v &&& 0xFF00#16) ||| (w &&& 0x00FF#16) = word (hiByte v) (loByte w) := by
  have hhigh : ∀ k < 16, (0xFF00#16).getLsbD k = decide (8 ≤ k) := by decide
  have hlow : ∀ k < 16, (0x00FF#16).getLsbD k = decide (k < 8) := by decide
  apply BitVec.eq_of_getLsbD_eq
  intro k hk
  rw [BitVec.getLsbD_or, BitVec.getLsbD_and, BitVec.getLsbD_and, hhigh k hk, hlow k hk, word,
    BitVec.getLsbD_append]
  rcases Nat.lt_or_ge k 8 with h | h
  · simp [loByte, h]
  · have hsub : 8 + (k - 8) = k := by omega
    have hlt : k - 8 < 8 := by omega
    simp [hiByte, h, hsub, hlt, Nat.not_lt.mpr h]

@[simp] theorem hiByte_word (hi lo : Byte) : hiByte (word hi lo) = hi := by
  have := lo.isLt
  apply BitVec.eq_of_toNat_eq
  rw [hiByte_toNat, word_toNat]
  omega

/-- The low byte counts modulo 256, whatever the high byte. -/
theorem loByte_word_add_one (hi lo : Byte) : loByte (word hi lo + 1) = lo + 1 := by
  have h16 : (1 : Word).toNat = 1 := rfl
  have h8 : (1 : Byte).toNat = 1 := rfl
  apply BitVec.eq_of_toNat_eq
  rw [loByte_toNat, BitVec.toNat_add, BitVec.toNat_add, word_toNat, h16, h8]
  omega

/-- Adding 1 to the low byte alone is R310's masked address: no carry into the high byte. -/
theorem word_lo_add_one_eq_masks (hi lo : Byte) :
    word hi (lo + 1) = (wordOf hi lo &&& 0xFF00#16) ||| ((wordOf hi lo + 1) &&& 0x00FF#16) := by
  rw [maskHigh_or_maskLow, ← word_eq_wordOf, hiByte_word, loByte_word_add_one]

/-! ### The jump -/

/-- JMP indirect makes its four reads and moves PC to the word it reads; nothing else changes (R310). -/
theorem jumpIndirect_eq (ll hh : Byte) (s : State) :
    jumpIndirect ll hh s =
      { afterReads [rd s.pc ll, rd (s.pc + 1) hh, rdAt s 2 (wordOf hh ll),
          rdAt s 3 (word hh (ll + 1))] 0 s with
        pc := wordOf (s.answerAt 3 (word hh (ll + 1))) (s.answerAt 2 (wordOf hh ll)) } := by
  simp [jumpIndirect, fetchOperand_eq, busRead_eq, word_eq_wordOf, addrOf_one]

end Sys2Proof.Machine

namespace Sys2Proof

open Machine

/-- Settles O42: the masked address is the pointer with 1 added to its low byte alone, and every clause is
then a field of the state `jumpIndirect_eq` gives. -/
theorem jumpIndirectKeepsThePointersPage : Obligations.JumpIndirectKeepsThePointersPage := by
  intro ll hh s
  refine ⟨rfl, jumpIndirect ll hh s, rfl, ?_⟩
  rw [jumpIndirect_eq, word_lo_add_one_eq_masks]
  exact ⟨rfl, ⟨rfl, rfl⟩, fun _ => rfl, ⟨rfl, rfl, rfl⟩, rfl, rfl, rfl, rfl, rfl⟩

end Sys2Proof
end

section
/-! SUPPORT. What the start of a step counts, and that the host's reset leaves the core running (R471, R475,
R551); settles O10. -/

namespace Sys2Proof.Machine

/-- A step that stops at its start has made no access, so it counts 0 (R475). -/
@[simp] theorem beginStep_work (s : State) : (beginStep s).work = 0 := rfl

/-- `reset()` ends a halt, whatever state it finds (R551). -/
@[simp] theorem hostReset_halted (s : State) : s.hostReset.halted = false := rfl

end Sys2Proof.Machine

namespace Sys2Proof

open Machine

/-- Settles O10: a halted step is `beginStep` alone, which empties the bus log; of the host's calls only
`reset()` writes halted. -/
theorem haltedStepDoesNothing : Obligations.HaltedStepDoesNothing := by
  intro s level h
  have hnmi : s.triggerNmi.halted = true := (triggerNmi_halted s).trans h
  have hirq : (s.triggerIrq level).halted = true := (triggerIrq_halted level s).trans h
  exact ⟨step_halted h, beginStep_work s, hnmi, hirq, hostReset_halted s⟩

end Sys2Proof
end

section
/-! SUPPORT. Decoding and encoding are inverse to each other: decoding an encoding is computed row by row, and the
rest is counting bytes; settles O1 to O5. -/

namespace Sys2Proof

/-! ### Decoding an encoding -/

/-- An encoding followed by any bytes decodes to its instruction and those bytes. Each row of the opcode map is one
computation; the rows that share a constructor are told apart by its first field. -/
theorem decode_encode_append (i : Instr) (rest : List Byte) :
    decode (encode i ++ rest) = .ok (i, rest) := by
  cases i with
  | stp op => cases op <;> rfl
  | nopZpg op => cases op <;> rfl
  | ancImm op => cases op <;> rfl
  | nopZpx op => cases op <;> rfl
  | nopImp op => cases op <;> rfl
  | nopAbx op => cases op <;> rfl
  | nopImm op => cases op <;> rfl
  | _ => rfl

theorem decode_encode (i : Instr) : decode (encode i) = .ok (i, []) := by
  have h := decode_encode_append i []
  rwa [List.append_nil] at h

/-! ### Encoding what was decoded -/

/-- The encoding has the length of the instruction's mode (R70, R71). -/
theorem encode_length (i : Instr) : (encode i).length = 1 + i.mode.operandBytes := by
  cases i <;> rfl

/-- A list of bytes decodes exactly when it holds the operand bytes of its opcode (R70, R78). -/
theorem decode_cons_eq_ok_iff (op : Byte) (tail rest : List Byte) (i : Instr) :
    decode (op :: tail) = .ok (i, rest) ↔
      (opcodeMode op).operandBytes ≤ tail.length ∧ decodeBytes op (tail.getD 0 0) (tail.getD 1 0) = i ∧
        tail.drop (opcodeMode op).operandBytes = rest := by
  simp only [decode, mode_decodeBytes]
  split
  · next hshort => simp [Nat.not_le.mpr hshort]
  · next hlong => simp [Nat.not_lt.mp hlong]

/-- What decodes has an opcode byte. -/
theorem exists_cons_of_decode {bytes rest : List Byte} {i : Instr} (h : decode bytes = .ok (i, rest)) :
    ∃ op tail, bytes = op :: tail := by
  cases bytes with
  | nil => simp [decode] at h
  | cons op tail => exact ⟨op, tail, rfl⟩

/-- The operand bytes the decoder looks at are the ones that stand after the opcode byte. -/
theorem take_getD_pair {n : Nat} {tail : List Byte} (hn : n ≤ 2) (hlen : n ≤ tail.length) :
    [tail.getD 0 0, tail.getD 1 0].take n = tail.take n := by
  match n, tail with
  | 0, _ => simp
  | 1, a :: _ => simp
  | 2, a :: b :: _ => simp

theorem eq_encode_append_of_decode {bytes rest : List Byte} {i : Instr}
    (h : decode bytes = .ok (i, rest)) : bytes = encode i ++ rest := by
  obtain ⟨op, tail, rfl⟩ := exists_cons_of_decode h
  obtain ⟨hlen, rfl, rfl⟩ := (decode_cons_eq_ok_iff ..).mp h
  rw [encode_decodeBytes, Nat.add_comm, List.take_succ_cons, take_getD_pair (operandBytes_le _) hlen,
    List.cons_append, List.take_append_drop]

/-- The encoding of what an opcode byte selects begins with it. -/
theorem headD_encode_decodeBytes (op b1 b2 : Byte) : (encode (decodeBytes op b1 b2)).headD 0 = op := by
  rw [encode_decodeBytes, Nat.add_comm, List.take_succ_cons, List.headD_cons]

/-! ### Encodings as numbers -/

/-- A list of numbers below 256 is a list of bytes. -/
theorem exists_bytes_of_allBytes {numbers : List Nat} (h : allBytes numbers = true) :
    ∃ bytes : List Byte, numbers = bytes.map BitVec.toNat := by
  simp only [allBytes, List.all_eq_true, decide_eq_true_eq] at h
  refine ⟨numbers.map (BitVec.ofNat 8), ?_⟩
  have hback : ∀ n ∈ numbers, (BitVec.toNat ∘ BitVec.ofNat 8) n = id n := fun n hn => by
    simp [Nat.mod_eq_of_lt (h n hn)]
  rw [List.map_map, List.map_congr_left hback, List.map_id]

/-- Bytes after an opcode byte are well formed when there are as many as its mode takes (R71). -/
theorem wellFormed_cons_iff (op : Byte) (tail : List Byte) :
    wellFormed ((op :: tail).map BitVec.toNat) = true ↔
      tail.length = (opcodeMode op).operandBytes := by
  have hbytes : allBytes ((op :: tail).map BitVec.toNat) = true := by
    simp only [allBytes, List.all_map, List.all_eq_true, Function.comp_apply, decide_eq_true_eq]
    exact fun b _ => b.isLt
  have hlen : rightLength ((op :: tail).map BitVec.toNat) = true ↔
      tail.length = (opcodeMode op).operandBytes := by
    simp [rightLength, tableLength_eq, Nat.add_comm 1]
  rw [wellFormed, hbytes, Bool.and_eq_true, hlen]
  simp [hasOpcode]

/-- Bytes that decode with nothing left over are well formed, and only those. -/
theorem wellFormed_iff_decode (bytes : List Byte) :
    wellFormed (bytes.map BitVec.toNat) = true ↔ ∃ i, decode bytes = .ok (i, []) := by
  cases bytes with
  | nil => simp [decode, wellFormed, hasOpcode]
  | cons op tail =>
    simp only [wellFormed_cons_iff, decode_cons_eq_ok_iff, List.drop_eq_nil_iff]
    constructor
    · exact fun h => ⟨_, h.ge, rfl, h.le⟩
    · rintro ⟨i, hge, -, hle⟩
      exact le_antisymm hle hge

/-! ### The statements -/

/-- Settles O1: ten words, each decoded by the table. -/
theorem decodingReadsTheOpcodeMap : Obligations.DecodingReadsTheOpcodeMap :=
  ⟨rfl, rfl, rfl, rfl, rfl, rfl, rfl, rfl, rfl, rfl⟩

/-- Settles O2, row by row of the opcode map. -/
theorem decodingAnEncodedInstructionGivesItBack :
    Obligations.DecodingAnEncodedInstructionGivesItBack :=
  decode_encode_append

/-- Settles O3: the operand bytes the decoder looked at are those it used up. -/
theorem encodingADecodedInstructionGivesItsBytesBack :
    Obligations.EncodingADecodedInstructionGivesItsBytesBack :=
  fun _ _ _ => eq_encode_append_of_decode

/-- Settles O4: numbers below 256 are bytes, and well-formed bytes are those that decode with nothing left over. -/
theorem wellFormedByteListsAreTheEncodings : Obligations.WellFormedByteListsAreTheEncodings := by
  intro numbers
  constructor
  · intro h
    have hall : allBytes numbers = true := by
      simp only [wellFormed, Bool.and_eq_true] at h
      obtain ⟨⟨-, hall⟩, -⟩ := h
      exact hall
    obtain ⟨bytes, rfl⟩ := exists_bytes_of_allBytes hall
    obtain ⟨i, hi⟩ := (wellFormed_iff_decode bytes).mp h
    exact ⟨i, by rw [eq_encode_append_of_decode hi, List.append_nil]⟩
  · rintro ⟨i, rfl⟩
    exact (wellFormed_iff_decode _).mpr ⟨i, decode_encode i⟩

/-- Settles O5: no mode takes more than two operand bytes, and the encoding of what an opcode byte selects begins
with that byte. -/
theorem everyOpcodeByteDecodes : Obligations.EveryOpcodeByteDecodes := by
  refine ⟨fun op b1 b2 rest => ?_, fun op op' b1 b2 b1' b2' h => ?_⟩
  · have hlen : (opcodeMode op).operandBytes ≤ (b1 :: b2 :: rest).length :=
      (operandBytes_le _).trans (Nat.le_add_left 2 rest.length)
    exact ⟨_, _, (decode_cons_eq_ok_iff ..).mpr ⟨hlen, rfl, rfl⟩⟩
  · rw [← headD_encode_decodeBytes op b1 b2, h, headD_encode_decodeBytes]

end Sys2Proof
end

section
/-! SUPPORT. What a body may change, and the frames of the executors: a body moves registers and flags but never B
and U, so an instruction's other effects are those of its addressing mode. -/

namespace Sys2Proof.Machine

/-! ### Bodies -/

/-- What a body does at most: it changes registers other than PC, and flags other than B and U (R27). -/
structure RegistersOnly (s t : State) : Prop where
  pc : t.pc = s.pc
  halted : t.halted = s.halted
  pendingNmi : t.pendingNmi = s.pendingNmi
  pendingIrq : t.pendingIrq = s.pendingIrq
  mem : t.mem = s.mem
  busInput : t.busInput = s.busInput
  log : t.log = s.log
  flagB : getFlag .b t.p = getFlag .b s.p
  flagU : getFlag .u t.p = getFlag .u s.p

/-- Two status bytes have the same B and U. -/
def SameBU (p q : Byte) : Prop := getFlag .b q = getFlag .b p ∧ getFlag .u q = getFlag .u p

theorem registersOnly_update (s : State) (a x y sp : Byte) {p : Byte} (h : SameBU s.p p) :
    RegistersOnly s { s with a := a, x := x, y := y, sp := sp, p := p } :=
  ⟨rfl, rfl, rfl, rfl, rfl, rfl, rfl, h.1, h.2⟩

theorem SameBU.refl (p : Byte) : SameBU p p := ⟨rfl, rfl⟩

@[simp] theorem RegistersOnly.refl (s : State) : RegistersOnly s s :=
  registersOnly_update s _ _ _ _ (.refl _)

theorem sameBU_setNz (v p : Byte) : SameBU p (setNz v p) := by simp [SameBU]

theorem sameBU_setNz_setFlag_c (v p : Byte) (on : Bool) : SameBU p (setNz v (setFlag .c on p)) := by
  simp [SameBU]

theorem sameBU_aslAlu (v p : Byte) : SameBU p (aslAlu v p).2 := sameBU_setNz_setFlag_c _ p _

theorem sameBU_lsrAlu (v p : Byte) : SameBU p (lsrAlu v p).2 := sameBU_setNz_setFlag_c _ p _

theorem sameBU_rolAlu (v p : Byte) : SameBU p (rolAlu v p).2 := sameBU_setNz_setFlag_c _ p _

theorem sameBU_rorAlu (v p : Byte) : SameBU p (rorAlu v p).2 := sameBU_setNz_setFlag_c _ p _

theorem sameBU_incAlu (v p : Byte) : SameBU p (incAlu v p).2 := sameBU_setNz _ p

theorem sameBU_decAlu (v p : Byte) : SameBU p (decAlu v p).2 := sameBU_setNz _ p

theorem sameBU_adcAlu (a v p : Byte) : SameBU p (adcAlu a v p).2 := by simp [SameBU]

theorem sameBU_arrAlu (a v p : Byte) : SameBU p (arrAlu a v p).2 := by simp [SameBU, arrAlu]

theorem sameBU_ancAlu (a v p : Byte) : SameBU p (ancAlu a v p).2 := by simp [SameBU, ancAlu]

theorem sameBU_bitFlags (a v p : Byte) : SameBU p (bitFlags a v p) := by simp [SameBU]

@[simp] theorem registersOnly_loadA (v : Byte) (s : State) : RegistersOnly s (loadA v s) :=
  registersOnly_update s _ _ _ _ (sameBU_setNz ..)
@[simp] theorem registersOnly_loadX (v : Byte) (s : State) : RegistersOnly s (loadX v s) :=
  registersOnly_update s _ _ _ _ (sameBU_setNz ..)
@[simp] theorem registersOnly_loadY (v : Byte) (s : State) : RegistersOnly s (loadY v s) :=
  registersOnly_update s _ _ _ _ (sameBU_setNz ..)
@[simp] theorem registersOnly_laxBody (v : Byte) (s : State) : RegistersOnly s (laxBody v s) :=
  registersOnly_update s _ _ _ _ (sameBU_setNz ..)
@[simp] theorem registersOnly_adc (v : Byte) (s : State) : RegistersOnly s (adc v s) :=
  registersOnly_update s _ _ _ _ (sameBU_adcAlu ..)
@[simp] theorem registersOnly_sbc (v : Byte) (s : State) : RegistersOnly s (sbc v s) :=
  registersOnly_update s _ _ _ _ (sameBU_adcAlu ..)
@[simp] theorem registersOnly_and8 (v : Byte) (s : State) : RegistersOnly s (and8 v s) :=
  registersOnly_loadA _ s
@[simp] theorem registersOnly_ora8 (v : Byte) (s : State) : RegistersOnly s (ora8 v s) :=
  registersOnly_loadA _ s
@[simp] theorem registersOnly_eor8 (v : Byte) (s : State) : RegistersOnly s (eor8 v s) :=
  registersOnly_loadA _ s
@[simp] theorem registersOnly_cmpA (v : Byte) (s : State) : RegistersOnly s (cmpA v s) :=
  registersOnly_update s _ _ _ _ (sameBU_setNz_setFlag_c ..)
@[simp] theorem registersOnly_cmpX (v : Byte) (s : State) : RegistersOnly s (cmpX v s) :=
  registersOnly_update s _ _ _ _ (sameBU_setNz_setFlag_c ..)
@[simp] theorem registersOnly_cmpY (v : Byte) (s : State) : RegistersOnly s (cmpY v s) :=
  registersOnly_update s _ _ _ _ (sameBU_setNz_setFlag_c ..)
@[simp] theorem registersOnly_bitTest (v : Byte) (s : State) : RegistersOnly s (bitTest v s) :=
  registersOnly_update s _ _ _ _ (sameBU_bitFlags ..)
@[simp] theorem registersOnly_ancBody (v : Byte) (s : State) : RegistersOnly s (ancBody v s) :=
  registersOnly_update s _ _ _ _ (sameBU_ancAlu ..)
@[simp] theorem registersOnly_alrBody (v : Byte) (s : State) : RegistersOnly s (alrBody v s) :=
  registersOnly_update s _ _ _ _ (sameBU_setNz_setFlag_c ..)
@[simp] theorem registersOnly_arrBody (v : Byte) (s : State) : RegistersOnly s (arrBody v s) :=
  registersOnly_update s _ _ _ _ (sameBU_arrAlu ..)
@[simp] theorem registersOnly_aneBody (v : Byte) (s : State) : RegistersOnly s (aneBody v s) :=
  registersOnly_loadA _ s
@[simp] theorem registersOnly_lxaBody (v : Byte) (s : State) : RegistersOnly s (lxaBody v s) :=
  registersOnly_update s _ _ _ _ (sameBU_setNz ..)
@[simp] theorem registersOnly_sbxBody (v : Byte) (s : State) : RegistersOnly s (sbxBody v s) :=
  registersOnly_update s _ _ _ _ (sameBU_setNz_setFlag_c ..)
@[simp] theorem registersOnly_lasBody (v : Byte) (s : State) : RegistersOnly s (lasBody v s) :=
  registersOnly_update s _ _ _ _ (sameBU_setNz ..)
@[simp] theorem registersOnly_nopBody (v : Byte) (s : State) : RegistersOnly s (nopBody v s) :=
  .refl s

theorem RegistersOnly.trans {s t u : State} (h : RegistersOnly s t) (k : RegistersOnly t u) :
    RegistersOnly s u :=
  ⟨k.pc.trans h.pc, k.halted.trans h.halted, k.pendingNmi.trans h.pendingNmi,
    k.pendingIrq.trans h.pendingIrq, k.mem.trans h.mem, k.busInput.trans h.busInput, k.log.trans h.log,
    k.flagB.trans h.flagB, k.flagU.trans h.flagU⟩

theorem RegistersOnly.byteAt {s t : State} (h : RegistersOnly s t) (a : Word) : t.byteAt a = s.byteAt a := by
  simp only [State.byteAt, h.mem]

theorem RegistersOnly.sameControl {s t : State} (h : RegistersOnly s t) : SameControl s t :=
  ⟨h.halted, h.pendingNmi, h.pendingIrq⟩

/-! ### Bodies of the read-modify-write discipline -/

theorem registersOnly_aluBody {f : Byte → Byte → Byte × Byte} (hf : ∀ v p, SameBU p (f v p).2) (v : Byte)
    (s : State) : RegistersOnly s (aluBody f v s).2 :=
  registersOnly_update s _ _ _ _ (hf v s.p)

@[simp] theorem registersOnly_asl (v : Byte) (s : State) : RegistersOnly s (aluBody aslAlu v s).2 :=
  registersOnly_aluBody sameBU_aslAlu v s
@[simp] theorem registersOnly_lsr (v : Byte) (s : State) : RegistersOnly s (aluBody lsrAlu v s).2 :=
  registersOnly_aluBody sameBU_lsrAlu v s
@[simp] theorem registersOnly_rol (v : Byte) (s : State) : RegistersOnly s (aluBody rolAlu v s).2 :=
  registersOnly_aluBody sameBU_rolAlu v s
@[simp] theorem registersOnly_ror (v : Byte) (s : State) : RegistersOnly s (aluBody rorAlu v s).2 :=
  registersOnly_aluBody sameBU_rorAlu v s
@[simp] theorem registersOnly_inc (v : Byte) (s : State) : RegistersOnly s (aluBody incAlu v s).2 :=
  registersOnly_aluBody sameBU_incAlu v s
@[simp] theorem registersOnly_dec (v : Byte) (s : State) : RegistersOnly s (aluBody decAlu v s).2 :=
  registersOnly_aluBody sameBU_decAlu v s
@[simp] theorem registersOnly_sloBody (v : Byte) (s : State) : RegistersOnly s (sloBody v s).2 :=
  (registersOnly_asl v s).trans (registersOnly_ora8 ..)
@[simp] theorem registersOnly_rlaBody (v : Byte) (s : State) : RegistersOnly s (rlaBody v s).2 :=
  (registersOnly_rol v s).trans (registersOnly_and8 ..)
@[simp] theorem registersOnly_sreBody (v : Byte) (s : State) : RegistersOnly s (sreBody v s).2 :=
  (registersOnly_lsr v s).trans (registersOnly_eor8 ..)
@[simp] theorem registersOnly_rraBody (v : Byte) (s : State) : RegistersOnly s (rraBody v s).2 :=
  (registersOnly_ror v s).trans (registersOnly_adc ..)
@[simp] theorem registersOnly_dcpBody (v : Byte) (s : State) : RegistersOnly s (dcpBody v s).2 :=
  registersOnly_cmpA ..
@[simp] theorem registersOnly_iscBody (v : Byte) (s : State) : RegistersOnly s (iscBody v s).2 :=
  registersOnly_sbc ..

/-! ### Bodies of mode imp -/

@[simp] theorem registersOnly_taxBody (s : State) : RegistersOnly s (taxBody s) := registersOnly_loadX ..
@[simp] theorem registersOnly_tayBody (s : State) : RegistersOnly s (tayBody s) := registersOnly_loadY ..
@[simp] theorem registersOnly_txaBody (s : State) : RegistersOnly s (txaBody s) := registersOnly_loadA ..
@[simp] theorem registersOnly_tyaBody (s : State) : RegistersOnly s (tyaBody s) := registersOnly_loadA ..
@[simp] theorem registersOnly_tsxBody (s : State) : RegistersOnly s (tsxBody s) := registersOnly_loadX ..
@[simp] theorem registersOnly_txsBody (s : State) : RegistersOnly s (txsBody s) :=
  registersOnly_update s _ _ _ _ (.refl _)
@[simp] theorem registersOnly_inxBody (s : State) : RegistersOnly s (inxBody s) := registersOnly_loadX ..
@[simp] theorem registersOnly_inyBody (s : State) : RegistersOnly s (inyBody s) := registersOnly_loadY ..
@[simp] theorem registersOnly_dexBody (s : State) : RegistersOnly s (dexBody s) := registersOnly_loadX ..
@[simp] theorem registersOnly_deyBody (s : State) : RegistersOnly s (deyBody s) := registersOnly_loadY ..
@[simp] theorem registersOnly_flagBody {f : Flag} (hf : f ≠ .b ∧ f ≠ .u) (on : Bool) (s : State) :
    RegistersOnly s (flagBody f on s) :=
  registersOnly_update s _ _ _ _ (by simp [SameBU, hf.1.symm, hf.2.symm])

/-! ### The frame of each executor -/

theorem readFrame_executeRead {body : Byte → State → State} (hbody : ∀ v t, RegistersOnly t (body v t))
    (o : Operand) (s : State) : ReadFrame o s (executeRead o body s) := by
  rw [executeRead_eq]
  have h := hbody (operandByte o s) (afterReads (operandAccesses o s) (operandSize o) s)
  refine ⟨h.pc, ⟨h.log, ?_⟩, h.byteAt, h.sameControl⟩
  rw [h.busInput, operandAccesses_reads, afterReads_busInput]

/-- A write after the accesses of a mode, wherever it goes (R427 has stores that do not go to the effective
address). -/
theorem frame_busWrite_afterReads (m : MemOperand) (addr : Word) (v : Byte) (s : State) :
    let t := busWrite addr v (afterReads (modeAccesses m .write s) (memSize m) s)
    t.pc = s.pc + addrOf (memSize m) ∧ Accesses (modeAccesses m .write s ++ [wr addr v]) s t ∧
      StoresOnly addr v s t ∧ SameControl s t := by
  refine ⟨rfl, ⟨?_, ?_⟩, ⟨?_, fun a ha => ?_⟩, rfl, rfl, rfl⟩
  · simp [wr]
  · simp [wr]
  · simp
  · simp [ha]

theorem writeFrame_executeWrite (m : MemOperand) (byte : State → Byte) (s : State) :
    WriteFrame m (byte (afterReads (modeAccesses m .write s) (memSize m) s)) s (executeWrite m byte s) := by
  rw [executeWrite_eq]
  exact frame_busWrite_afterReads m _ _ s

/-- The state in which a read-modify-write body runs: the operand read and written back unmodified (R139). -/
def beforeRmwBody (m : MemOperand) (s : State) : State :=
  busWrite (effAddr m s) (memByte m .rmw s)
    (afterReads (modeAccesses m .rmw s ++ [rd (effAddr m s) (memByte m .rmw s)]) (memSize m) s)

@[simp] theorem beforeRmwBody_busInput (m : MemOperand) (s : State) :
    (beforeRmwBody m s).busInput = s.busInput.drop ((modeAccesses m .rmw s).length + 1) := by
  simp [beforeRmwBody]
@[simp] theorem beforeRmwBody_log (m : MemOperand) (s : State) :
    (beforeRmwBody m s).log = s.log ++ (modeAccesses m .rmw s ++
      [rd (effAddr m s) (memByte m .rmw s), wr (effAddr m s) (memByte m .rmw s)]) := by
  simp [beforeRmwBody, wr]

theorem byteAt_beforeRmwBody {m : MemOperand} {s : State} {a : Word} (ha : a ≠ effAddr m s) :
    (beforeRmwBody m s).byteAt a = s.byteAt a := by
  simp [beforeRmwBody, ha]

theorem executeRmw_eq_body (m : MemOperand) (body : Byte → State → Byte × State) (s : State) :
    executeRmw m body s =
      busWrite (effAddr m s) (body (memByte m .rmw s) (beforeRmwBody m s)).1
        (body (memByte m .rmw s) (beforeRmwBody m s)).2 :=
  executeRmw_eq m body s

theorem rmwFrame_executeRmw {body : Byte → State → Byte × State}
    (hbody : ∀ v t, RegistersOnly t (body v t).2) (m : MemOperand) (s : State) :
    RmwFrame m (body (memByte m .rmw s) (beforeRmwBody m s)).1 s (executeRmw m body s) := by
  rw [executeRmw_eq_body]
  have h := hbody (memByte m .rmw s) (beforeRmwBody m s)
  refine ⟨h.pc, ⟨?_, ?_⟩, ⟨?_, fun a ha => ?_⟩, h.sameControl⟩
  · simp [h.log, wr]
  · simp [h.busInput, rd, wr]
  · simp
  · simp [ha, h.byteAt, byteAt_beforeRmwBody]

theorem impliedFrame_executeImp {body : State → State} (hbody : ∀ t, RegistersOnly t (body t)) (s : State) :
    ImpliedFrame s (executeImp body s) ∧ SameControl s (executeImp body s) := by
  rw [executeImp_eq]
  have h := hbody (afterReads [rdAt s 0 s.pc] 0 s)
  refine ⟨⟨?_, ⟨h.log, h.busInput⟩, h.byteAt⟩, h.sameControl⟩
  simpa using h.pc

theorem impliedFrame_executeAcc (f : Byte → Byte → Byte × Byte) (s : State) :
    ImpliedFrame s (executeAcc f s) ∧ SameControl s (executeAcc f s) := by
  rw [executeAcc_eq]
  refine ⟨⟨?_, ⟨rfl, rfl⟩, fun _ => rfl⟩, rfl, rfl, rfl⟩
  simp

end Sys2Proof.Machine
end

section
/-! SUPPORT. The control and stack instructions as one update of the state each, and what a run of pushes leaves on
the stack. -/

namespace Sys2Proof.Machine

/-! ### A run of pushes -/

/-- Memory after the bytes `vs` are pushed, the first at `k` places below the stack pointer `sp`. -/
def pushBytes (sp : Byte) : Nat → List Byte → Memory → Memory
  | _, [], m => m
  | k, v :: vs, m => pushBytes sp (k + 1) vs (Memory.write m (stackSlot (sp - BitVec.ofNat 8 k)).toNat v)

theorem stackSlot_sub_inj {sp : Byte} {j k : Nat} (hj : j < 256) (hk : k < 256)
    (h : stackSlot (sp - BitVec.ofNat 8 j) = stackSlot (sp - BitVec.ofNat 8 k)) : j = k := by
  have hsub := congrArg BitVec.toNat (stackSlot_inj h)
  have := sp.isLt
  simp only [BitVec.toNat_sub, BitVec.toNat_ofNat] at hsub
  omega

/-- A run of pushes changes no byte but those at its places. -/
theorem read_pushBytes_other (sp : Byte) (vs : List Byte) (k : Nat) (m : Memory) (a : Word)
    (ha : ∀ j, k ≤ j → j < k + vs.length → a ≠ stackSlot (sp - BitVec.ofNat 8 j)) :
    Memory.read (pushBytes sp k vs m) a.toNat = Memory.read m a.toNat := by
  induction vs generalizing k m with
  | nil => rfl
  | cons v vs ih =>
    rw [List.length_cons] at ha
    have hne : a.toNat ≠ (stackSlot (sp - BitVec.ofNat 8 k)).toNat := fun h =>
      ha k le_rfl (by omega) (BitVec.eq_of_toNat_eq h)
    rw [pushBytes, ih (k + 1) _ fun j hj hlt => ha j (by omega) (by omega), Memory.read_write_other _ _ hne]

/-- Up to 256 pushes leave each byte at its place. -/
theorem read_pushBytes_getElem (sp : Byte) (vs : List Byte) (k : Nat) (m : Memory)
    (hlen : k + vs.length ≤ 256) (j : Nat) (hj : j < vs.length) :
    Memory.read (pushBytes sp k vs m) (stackSlot (sp - BitVec.ofNat 8 (k + j))).toNat = vs[j] := by
  induction vs generalizing k j m with
  | nil => simp at hj
  | cons v vs ih =>
    rw [List.length_cons] at hlen hj
    rw [pushBytes]
    cases j with
    | zero =>
      have hplace : ∀ i, k + 1 ≤ i → i < k + 1 + vs.length →
          stackSlot (sp - BitVec.ofNat 8 (k + 0)) ≠ stackSlot (sp - BitVec.ofNat 8 i) := fun i hi hlt h => by
        have := stackSlot_sub_inj (by omega) (by omega) h
        omega
      rw [read_pushBytes_other sp vs (k + 1) _ _ hplace, Nat.add_zero, Memory.read_write_same]
      rfl
    | succ j =>
      rw [show k + (j + 1) = k + 1 + j by omega, ih (k + 1) _ (by omega) j (by omega)]
      rfl

theorem stackedOnly_of_mem {vs : List Byte} {s t : State} (hlen : vs.length ≤ 256)
    (h : t.mem = pushBytes s.sp 0 vs s.mem) : StackedOnly vs s t := by
  refine ⟨fun k hk => ?_, fun a ha => ?_⟩
  · have hread := read_pushBytes_getElem s.sp vs 0 s.mem (by omega) k hk
    rwa [Nat.zero_add, ← h] at hread
  · rw [State.byteAt, h]
    exact read_pushBytes_other s.sp vs 0 s.mem a fun j _ hj => ha j (by omega)

theorem wf_pushBytes (sp : Byte) (vs : List Byte) (k : Nat) {m : Memory} (h : Memory.wf m = true) :
    Memory.wf (pushBytes sp k vs m) = true := by
  induction vs generalizing k m with
  | nil => exact h
  | cons v vs ih => exact ih (k + 1) (Memory.wf_write_addr _ _ _ h)

/-! ### Jumps and subroutines -/

theorem jumpAbsolute_eq (ll hh : Byte) (s : State) :
    jumpAbsolute ll hh s = { afterReads [rd s.pc ll, rd (s.pc + 1) hh] 0 s with pc := wordOf hh ll } := by
  simp [jumpAbsolute, fetchOperand_eq, word_eq_wordOf, addrOf_one]

/-- Memory after JSR's pushes. -/
def callMem (s : State) : Memory :=
  pushBytes s.sp 0 [highOf (s.pc + 1), lowOf (s.pc + 1)] s.mem

/-- JSR reads its third byte from the memory its own pushes left (R66, R311). -/
def callHigh (s : State) : Byte := s.answerOr 2 (Memory.read (callMem s) (s.pc + 1).toNat)

theorem jumpSubroutine_eq (ll : Byte) (s : State) :
    jumpSubroutine ll s =
      { s with
        pc := wordOf (callHigh s) ll
        sp := s.sp - 2
        mem := callMem s
        busInput := s.busInput.drop 3
        log := s.log ++ ([rd s.pc ll, rdAt s 1 (stackSlot s.sp)] ++
          pushEvents s.sp [highOf (s.pc + 1), lowOf (s.pc + 1)] ++ [rd (s.pc + 1) (callHigh s)]) } := by
  simp only [jumpSubroutine, fetchOperand_eq, dummyRead_eq, pushWord_eq, busRead_eq, stackAddr_eq]
  simp [afterReads, rdAt, State.answerAt, State.answerOr, State.byteAt, callHigh, callMem, pushBytes, pushEvents,
    word_eq_wordOf, addrOf_one]

/-- RTS makes its two dummy reads, pulls PC, and reads at the pulled address before it steps past it (R312). -/
theorem returnSubroutine_eq (s : State) :
    returnSubroutine s =
      let lo := s.answerAt 2 (stackSlot (s.sp + 1))
      let hi := s.answerAt 3 (stackSlot (s.sp + 2))
      { s with
        pc := wordOf hi lo + 1
        sp := s.sp + 2
        busInput := s.busInput.drop 5
        log := s.log ++ [rdAt s 0 s.pc, rdAt s 1 (stackSlot s.sp), rd (stackSlot (s.sp + 1)) lo,
          rd (stackSlot (s.sp + 2)) hi, rdAt s 4 (wordOf hi lo)] } := by
  have h (es : List BusEvent) (sp : Byte) (k : Nat) (a : Word) :
      State.answerAt { afterReads es 0 s with sp := sp } k a = s.answerAt (es.length + k) a := by
    rw [← answerAt_afterReads es 0 s k a]
    exact answerAt_congr rfl rfl k a
  simp only [returnSubroutine, dummyRead_eq, pullWord_eq, stackAddr_eq, rdAt, afterReads_afterReads,
    afterReads_sp, h]
  simp [afterReads]

/-! ### Interrupts -/

/-- Entering a handler, with its pushes and reads as the statements list them (R507). -/
theorem enterInterrupt_eq_pushBytes (vector : Word) (b : Bool) (s : State) (h0 : 512 ≤ vector.toNat)
    (h1 : 512 ≤ (vector + 1).toNat) :
    enterInterrupt vector b s =
      let pushed := [highOf s.pc, lowOf s.pc, pushRepr b s.p]
      { s with
        pc := wordOf (s.answerAt 1 (vector + 1)) (s.answerAt 0 vector)
        sp := s.sp - 3
        p := setFlag .i true s.p
        mem := pushBytes s.sp 0 pushed s.mem
        busInput := s.busInput.drop 2
        log := s.log ++ (pushEvents s.sp pushed ++ [rdAt s 0 vector, rdAt s 1 (vector + 1)]) } := by
  rw [enterInterrupt_eq vector b s h0 h1]
  simp [pushBytes, pushEvents]

/-- BRK fetches its padding byte and enters the handler at the IRQ vector with B = 1 (R313). -/
theorem softwareInterrupt_eq (s : State) :
    softwareInterrupt s =
      let pushed := [highOf (s.pc + 1), lowOf (s.pc + 1), s.p ||| 0x30#8]
      let lo := s.answerAt 1 0xFFFE#16
      let hi := s.answerAt 2 0xFFFF#16
      { s with
        pc := wordOf hi lo
        sp := s.sp - 3
        p := setFlag .i true s.p
        mem := pushBytes s.sp 0 pushed s.mem
        busInput := s.busInput.drop 3
        log := s.log ++ ([rdAt s 0 s.pc] ++ pushEvents s.sp pushed ++
          [rd 0xFFFE#16 lo, rd 0xFFFF#16 hi]) } := by
  have hv : irqVector + 1 = 0xFFFF#16 := rfl
  rw [softwareInterrupt, enterInterrupt_eq_pushBytes _ _ _ (by decide) (by decide), fetch8_eq, hv]
  simp only [rdAt, answerAt_afterReads]
  simp [afterReads, addrOf_one, irqVector, pushRepr]

/-- RTI makes its two dummy reads and pulls P and PC (R314). -/
theorem returnInterrupt_eq (s : State) :
    returnInterrupt s =
      let v := s.answerAt 2 (stackSlot (s.sp + 1))
      let lo := s.answerAt 3 (stackSlot (s.sp + 2))
      let hi := s.answerAt 4 (stackSlot (s.sp + 3))
      { s with
        pc := wordOf hi lo
        sp := s.sp + 3
        p := pullRepr v s.p
        busInput := s.busInput.drop 5
        log := s.log ++ [rdAt s 0 s.pc, rdAt s 1 (stackSlot s.sp), rd (stackSlot (s.sp + 1)) v,
          rd (stackSlot (s.sp + 2)) lo, rd (stackSlot (s.sp + 3)) hi] } := by
  simp only [returnInterrupt, returnFromInterrupt_eq, dummyRead_eq, stackAddr_eq, rdAt, answerAt_afterReads,
    afterReads_afterReads, afterReads_sp]
  simp [afterReads]

/-- The vector of an interrupt (R506). -/
def Interrupt.vector : Interrupt → Word
  | .nmi => nmiVector
  | .irq => irqVector

/-- A service makes two dummy reads at PC and enters the handler with B = 0; NMI's clears its latch (R505). -/
theorem service_eq (kind : Interrupt) (s : State) :
    service kind s =
      let pushed := [highOf s.pc, lowOf s.pc, (s.p &&& 0xEF#8) ||| 0x20#8]
      let lo := s.answerAt 2 kind.vector
      let hi := s.answerAt 3 (kind.vector + 1)
      { s with
        pc := wordOf hi lo
        sp := s.sp - 3
        p := setFlag .i true s.p
        mem := pushBytes s.sp 0 pushed s.mem
        pendingNmi := s.pendingNmi && kind != .nmi
        busInput := s.busInput.drop 4
        log := s.log ++ ([rdAt s 0 s.pc, rdAt s 1 s.pc] ++ pushEvents s.sp pushed ++
          [rd kind.vector lo, rd (kind.vector + 1) hi]) } := by
  cases kind
  all_goals
    simp only [service, dummyRead_eq]
    rw [enterInterrupt_eq_pushBytes _ _ _ (by decide) (by decide)]
    simp only [rdAt, answerAt_afterReads]
    simp [Interrupt.vector, afterReads, pushRepr]

/-! ### The stack instructions -/

theorem pushA_eq (s : State) :
    pushA s =
      { s with
        sp := s.sp - 1
        mem := pushBytes s.sp 0 [s.a] s.mem
        busInput := s.busInput.drop 1
        log := s.log ++ [rdAt s 0 s.pc, wr (stackSlot s.sp) s.a] } := by
  simp [pushA, push_eq, dummyRead_eq, afterReads, pushBytes]

theorem pushP_eq (s : State) :
    pushP s =
      { s with
        sp := s.sp - 1
        mem := pushBytes s.sp 0 [s.p ||| 0x30#8] s.mem
        busInput := s.busInput.drop 1
        log := s.log ++ [rdAt s 0 s.pc, wr (stackSlot s.sp) (s.p ||| 0x30#8)] } := by
  simp [pushP, push_eq, dummyRead_eq, afterReads, pushBytes, pushRepr]

/-- The byte PLA and PLP pull: the third of their reads. -/
def pulledByte (s : State) : Byte := s.answerAt 2 (stackSlot (s.sp + 1))

/-- What PLA and PLP do before they use the pulled byte (R342, R343). -/
def afterPull (s : State) : State :=
  { s with
    sp := s.sp + 1
    busInput := s.busInput.drop 3
    log := s.log ++ [rdAt s 0 s.pc, rdAt s 1 (stackSlot s.sp), rd (stackSlot (s.sp + 1)) (pulledByte s)] }

theorem pull_after_dummyReads (s : State) :
    pull (dummyRead (stackAddr (dummyRead s.pc s).sp) (dummyRead s.pc s)) = (pulledByte s, afterPull s) := by
  simp only [pull_eq, dummyRead_eq, stackAddr_eq, rdAt, answerAt_afterReads, afterReads_afterReads, afterReads_sp]
  simp [pulledByte, afterPull, afterReads, rdAt]

theorem pullA_eq (s : State) : pullA s = loadA (pulledByte s) (afterPull s) := by
  simp only [pullA, pull_after_dummyReads]

theorem pullP_eq (s : State) :
    pullP s = { afterPull s with p := pullRepr (pulledByte s) s.p } := by
  simp only [pullP, pull_after_dummyReads]
  rfl

end Sys2Proof.Machine
end

section
/-! SUPPORT. What every instruction keeps and how many accesses it makes, said once for each executor and then, by
one case split over the instructions, for `exec`. -/

namespace Sys2Proof.Machine

/-! ### The number of accesses of a mode -/

/-- The reads a mode makes whatever its index is (R142). -/
def modeReads : MemOperand → Nat
  | .zpg _ => 1
  | .zpx _ | .zpy _ | .abs _ _ | .abx _ _ | .aby _ _ => 2
  | .izx _ => 4
  | .izy _ => 3

/-- The modes with an indexed 16-bit base (R134). -/
def hasIndexedBase : MemOperand → Bool
  | .abx _ _ | .aby _ _ | .izy _ => true
  | _ => false

/-- Whether the index sum of a mode crosses a page (R134). -/
def modeCrosses (m : MemOperand) (s : State) : Bool :=
  match m with
  | .abx ll _ => crosses ll s.x
  | .aby ll _ => crosses ll s.y
  | .izy nn => crosses (s.answerAt 1 (addrOf nn.toNat)) s.y
  | _ => false

/-- The dummy read of an indexed base is the only access of a mode that depends on the state (R135, R136). -/
theorem modeAccesses_length (m : MemOperand) (d : Discipline) (s : State) :
    (modeAccesses m d s).length =
      modeReads m + (hasIndexedBase m && (modeCrosses m s || d != .read)).toNat := by
  have hdummy (k : Nat) (hh ll i : Byte) :
      (indexDummy s k hh ll i d).length = (crosses ll i || d != .read).toNat := by
    rw [indexDummy]
    cases crosses ll i || d != .read <;> rfl
  cases m <;> simp [modeAccesses, modeReads, hasIndexedBase, modeCrosses, hdummy, rdAt, rd] <;> omega

/-- The entry of R560 for an instruction of discipline `d` that makes `k` accesses after the resolver's: one
access more, the opcode fetch, comes before them. -/
def modeCount (m : MemOperand) (d : Discipline) (k : Nat) : Count :=
  if hasIndexedBase m then
    if d = .read then .crossing (modeReads m + k + 1) else .fixed (modeReads m + 1 + k + 1)
  else .fixed (modeReads m + k + 1)

/-- The entry of R560 for a read form. -/
def operandCount : Operand → Count
  | .imm _ => .fixed 2
  | .mem m => modeCount m .read 1

/-- Whether the index sum of a read form crosses a page. -/
def operandCrosses (o : Operand) (s : State) : Bool :=
  match o with
  | .imm _ => false
  | .mem m => modeCrosses m s

/-! ### The counts of R560 -/

/-- The `n` accesses that `i` makes at `s` after its opcode fetch are those of the table of R560. -/
def Tabulated (i : Instr) (s : State) (n : Nat) : Prop :=
  match countOf ((encode i).headD 0) with
  | .fixed k => n + 1 = k
  | .crossing k => n + 1 = k + (addressCrosses i s).toNat
  | .branch => ∃ f polarity dd, (i, f, polarity) ∈ branchForms dd ∧ n + 1 = branchCount f polarity dd s

/-- The entry of the table of R560 for an instruction. -/
def tableEntry (i : Instr) : Option Count := (encode i).head?.map countOf

theorem countOf_of_tableEntry {i : Instr} {c : Count} (h : tableEntry i = some c) :
    countOf ((encode i).headD 0) = c := by
  simp only [tableEntry, Option.map_eq_some_iff] at h
  obtain ⟨op, hop, rfl⟩ := h
  rw [List.headD_eq_head?_getD, hop, Option.getD_some]

theorem tabulated_of_fixed {i : Instr} {n : Nat} (h : tableEntry i = some (.fixed (n + 1)))
    (s : State) : Tabulated i s n := by
  rw [Tabulated, countOf_of_tableEntry h]

theorem tabulated_of_mode {i : Instr} {m : MemOperand} {d : Discipline} {k : Nat}
    (h : tableEntry i = some (modeCount m d k)) (s t : State)
    (hcross : d = .read → addressCrosses i s = modeCrosses m t) :
    Tabulated i s ((modeAccesses m d t).length + k) := by
  rw [Tabulated, countOf_of_tableEntry h, modeCount, modeAccesses_length]
  cases hasIndexedBase m with
  | false => simp
  | true =>
    by_cases hd : d = .read
    · simp only [hd, hcross hd, Bool.true_and, if_true, bne_self_eq_false, Bool.or_false]
      omega
    · simp [hd]

theorem tabulated_branch {i : Instr} {f : Flag} {polarity : Bool} {dd : Byte}
    (h : tableEntry i = some .branch) (hi : (i, f, polarity) ∈ branchForms dd) (s : State) :
    Tabulated i s (branchAccesses f polarity dd s).length := by
  rw [Tabulated, countOf_of_tableEntry h]
  exact ⟨f, polarity, dd, hi, (branchCount_eq f polarity dd s).symm⟩

/-! ### Regular meanings -/

/-- The instruction is STP (R434). -/
def isStp : Instr → Bool
  | .stp _ => true
  | _ => false

/-- What the meaning `run` of every instruction `i` has: it keeps both latches (R36, R37), B and U (R27) and the
canonical form of memory, halts the core only if `i` is STP (R434), and makes the accesses of R560. -/
structure Regular (i : Instr) (run : State → State) : Prop where
  pendingNmi : ∀ s, (run s).pendingNmi = s.pendingNmi
  pendingIrq : ∀ s, (run s).pendingIrq = s.pendingIrq
  sameBU : ∀ s, SameBU s.p (run s).p
  wf : ∀ s, Memory.wf s.mem = true → Memory.wf (run s).mem = true
  halted : ∀ s, (run s).halted = (s.halted || isStp i)
  counts : ∀ s, ∃ n, (run s).log.length = s.log.length + n ∧ Tabulated i s n

theorem RegistersOnly.sameBU {s t : State} (h : RegistersOnly s t) : SameBU s.p t.p := ⟨h.flagB, h.flagU⟩

/-- A meaning is regular when its update of the state is, field by field. -/
theorem regular_of_update {i : Instr} {run : State → State} {n : State → Nat}
    (h : ∀ s, SameControl s (run s) ∧ SameBU s.p (run s).p ∧
      (Memory.wf s.mem = true → Memory.wf (run s).mem = true) ∧ (run s).log.length = s.log.length + n s)
    (hstp : isStp i = false) (hcount : ∀ s, Tabulated i s (n s)) : Regular i run := by
  refine ⟨fun s => ?_, fun s => ?_, fun s => ?_, fun s => ?_, fun s => ?_, fun s => ?_⟩
  all_goals obtain ⟨⟨hhalted, hnmi, hirq⟩, hBU, hwf, hlog⟩ := h s
  · exact hnmi
  · exact hirq
  · exact hBU
  · exact hwf
  · rw [hhalted, hstp, Bool.or_false]
  · exact ⟨n s, hlog, hcount s⟩

theorem regular_executeRead {i : Instr} {o : Operand} {body : Byte → State → State}
    (hbody : ∀ v t, RegistersOnly t (body v t)) (hstp : isStp i = false)
    (hcount : tableEntry i = some (operandCount o))
    (hcross : ∀ s, addressCrosses i s = operandCrosses o s) : Regular i (executeRead o body) := by
  refine regular_of_update (n := fun s => (operandAccesses o s).length) (fun s => ?_) hstp fun s => ?_
  · have h := hbody (operandByte o s) (afterReads (operandAccesses o s) (operandSize o) s)
    rw [executeRead_eq]
    exact ⟨h.sameControl, h.sameBU, fun hs => h.mem ▸ hs, by simp [h.log]⟩
  · cases o with
    | imm nn => exact tabulated_of_fixed hcount s
    | mem m =>
      rw [operandAccesses, List.length_append]
      exact tabulated_of_mode hcount s s fun _ => hcross s

theorem regular_executeWrite {i : Instr} {m : MemOperand} {byte : State → Byte} (hstp : isStp i = false)
    (hcount : tableEntry i = some (modeCount m .write 1)) : Regular i (executeWrite m byte) := by
  refine regular_of_update (n := fun s => (modeAccesses m .write s).length + 1) (fun s => ?_) hstp
    fun s => tabulated_of_mode hcount s s nofun
  rw [executeWrite_eq]
  exact ⟨⟨rfl, rfl, rfl⟩, .refl _, wf_busWrite _ _ _, by simp⟩

theorem regular_executeRmw {i : Instr} {m : MemOperand} {body : Byte → State → Byte × State}
    (hbody : ∀ v t, RegistersOnly t (body v t).2) (hstp : isStp i = false)
    (hcount : tableEntry i = some (modeCount m .rmw 3)) : Regular i (executeRmw m body) := by
  refine regular_of_update (n := fun s => (modeAccesses m .rmw s).length + 3) (fun s => ?_) hstp
    fun s => tabulated_of_mode hcount s s nofun
  have h := hbody (memByte m .rmw s) (beforeRmwBody m s)
  rw [executeRmw_eq_body]
  exact ⟨h.sameControl, h.sameBU, fun hs => wf_busWrite _ _ _ (h.mem ▸ wf_busWrite _ _ _ hs), by simp [h.log]⟩

/-- A store of R427 makes one write after the resolver's accesses. -/
theorem executeHighStore_eq_busWrite (m : MemOperand) (reg : State → Byte) (s : State) :
    ∃ a v, executeHighStore m reg s =
      busWrite a v (afterReads (modeAccesses m .write s) (memSize m) s) :=
  ⟨_, _, by rw [← resolve_state]; rfl⟩

/-- The stores of R427; TAS sets SP first. -/
theorem regular_executeHighStore {i : Instr} {m : MemOperand} {reg : State → Byte} {before : State → State}
    (hbefore : ∀ t, RegistersOnly t (before t)) (hstp : isStp i = false)
    (hcount : tableEntry i = some (modeCount m .write 1)) :
    Regular i fun s => executeHighStore m reg (before s) := by
  refine regular_of_update (n := fun s => (modeAccesses m .write (before s)).length + 1) (fun s => ?_) hstp
    fun s => tabulated_of_mode hcount s _ nofun
  have h := hbefore s
  obtain ⟨a, v, heq⟩ := executeHighStore_eq_busWrite m reg (before s)
  rw [heq]
  exact ⟨h.sameControl, h.sameBU, fun hs => wf_busWrite _ _ _ (h.mem ▸ hs), by simp [h.log]⟩

theorem regular_executeImp {i : Instr} {body : State → State} (hbody : ∀ t, RegistersOnly t (body t))
    (hstp : isStp i = false) (hcount : tableEntry i = some (.fixed 2)) : Regular i (executeImp body) := by
  refine regular_of_update (n := fun _ => 1) (fun s => ?_) hstp fun s => tabulated_of_fixed hcount s
  have h := hbody (afterReads [rdAt s 0 s.pc] 0 s)
  rw [executeImp_eq]
  exact ⟨h.sameControl, h.sameBU, fun hs => h.mem ▸ hs, by simp [h.log]⟩

theorem regular_executeAcc {i : Instr} {f : Byte → Byte → Byte × Byte} (hf : ∀ v p, SameBU p (f v p).2)
    (hstp : isStp i = false) (hcount : tableEntry i = some (.fixed 2)) : Regular i (executeAcc f) := by
  refine regular_of_update (n := fun _ => 1) (fun s => ?_) hstp fun s => tabulated_of_fixed hcount s
  rw [executeAcc_eq]
  exact ⟨⟨rfl, rfl, rfl⟩, hf s.a s.p, id, List.length_append⟩

theorem regular_branch {i : Instr} {f : Flag} {polarity : Bool} {dd : Byte}
    (hi : (i, f, polarity) ∈ branchForms dd) (hstp : isStp i = false)
    (hcount : tableEntry i = some .branch) : Regular i (branch f polarity dd) := by
  refine regular_of_update (n := fun s => (branchAccesses f polarity dd s).length) (fun s => ?_) hstp
    fun s => tabulated_branch hcount hi s
  rw [branch_eq]
  exact ⟨⟨rfl, rfl, rfl⟩, .refl _, id, List.length_append⟩

/-! ### The instructions that no executor runs -/

theorem regular_jumpAbsolute (ll hh : Byte) : Regular (.jmpAbs ll hh) (jumpAbsolute ll hh) :=
  regular_of_update (n := fun _ => 2) (fun s => by
    rw [jumpAbsolute_eq]
    exact ⟨⟨rfl, rfl, rfl⟩, .refl _, id, List.length_append⟩) rfl (tabulated_of_fixed rfl)

theorem regular_jumpIndirect (ll hh : Byte) : Regular (.jmpInd ll hh) (jumpIndirect ll hh) :=
  regular_of_update (n := fun _ => 4) (fun s => by
    rw [jumpIndirect_eq]
    exact ⟨⟨rfl, rfl, rfl⟩, .refl _, id, List.length_append⟩) rfl (tabulated_of_fixed rfl)

theorem regular_jumpSubroutine (ll hh : Byte) : Regular (.jsr ll hh) (jumpSubroutine ll) :=
  regular_of_update (n := fun _ => 5) (fun s => by
    rw [jumpSubroutine_eq]
    exact ⟨⟨rfl, rfl, rfl⟩, .refl _, wf_pushBytes _ _ _, List.length_append⟩) rfl (tabulated_of_fixed rfl)

theorem regular_returnSubroutine : Regular .rts returnSubroutine :=
  regular_of_update (n := fun _ => 5) (fun s => by
    rw [returnSubroutine_eq]
    exact ⟨⟨rfl, rfl, rfl⟩, .refl _, id, List.length_append⟩) rfl (tabulated_of_fixed rfl)

theorem sameBU_setFlag_i (on : Bool) (p : Byte) : SameBU p (setFlag .i on p) := by simp [SameBU]

theorem sameBU_pullRepr (v p : Byte) : SameBU p (pullRepr v p) := by simp [SameBU]

theorem regular_softwareInterrupt : Regular .brk softwareInterrupt :=
  regular_of_update (n := fun _ => 6) (fun s => by
    rw [softwareInterrupt_eq]
    exact ⟨⟨rfl, rfl, rfl⟩, sameBU_setFlag_i .., wf_pushBytes _ _ _, List.length_append⟩) rfl (tabulated_of_fixed rfl)

theorem regular_returnInterrupt : Regular .rti returnInterrupt :=
  regular_of_update (n := fun _ => 5) (fun s => by
    rw [returnInterrupt_eq]
    exact ⟨⟨rfl, rfl, rfl⟩, sameBU_pullRepr .., id, List.length_append⟩) rfl (tabulated_of_fixed rfl)

theorem regular_pushA : Regular .pha pushA :=
  regular_of_update (n := fun _ => 2) (fun s => by
    rw [pushA_eq]
    exact ⟨⟨rfl, rfl, rfl⟩, .refl _, wf_pushBytes _ _ _, List.length_append⟩) rfl (tabulated_of_fixed rfl)

theorem regular_pushP : Regular .php pushP :=
  regular_of_update (n := fun _ => 2) (fun s => by
    rw [pushP_eq]
    exact ⟨⟨rfl, rfl, rfl⟩, .refl _, wf_pushBytes _ _ _, List.length_append⟩) rfl (tabulated_of_fixed rfl)

theorem regular_pullA : Regular .pla pullA :=
  regular_of_update (n := fun _ => 3) (fun s => by
    rw [pullA_eq]
    exact ⟨⟨rfl, rfl, rfl⟩, sameBU_setNz .., id, List.length_append⟩) rfl (tabulated_of_fixed rfl)

theorem regular_pullP : Regular .plp pullP :=
  regular_of_update (n := fun _ => 3) (fun s => by
    rw [pullP_eq]
    exact ⟨⟨rfl, rfl, rfl⟩, sameBU_pullRepr .., id, List.length_append⟩) rfl (tabulated_of_fixed rfl)

/-- STP: the one instruction that halts. -/
theorem regular_stop (op : StpOpcode) : Regular (.stp op) (executeImp stopBody) := by
  refine ⟨fun _ => rfl, fun _ => rfl, fun _ => .refl _, fun _ hs => hs, fun s => (Bool.or_true _).symm,
    fun s => ⟨1, by simp [executeImp, stopBody], tabulated_of_fixed ?_ s⟩⟩
  cases op <;> rfl

/-! ### Every instruction -/

/-- The opcodes of STP, of ANC and of the illegal NOPs of one mode have one count each (R560). -/
theorem count_shared :
    (∀ op nn, tableEntry (.nopZpg op nn) = some (.fixed 3)) ∧
    (∀ op nn, tableEntry (.ancImm op nn) = some (.fixed 2)) ∧
    (∀ op nn, tableEntry (.nopZpx op nn) = some (.fixed 4)) ∧
    (∀ op, tableEntry (.nopImp op) = some (.fixed 2)) ∧
    (∀ op ll hh, tableEntry (.nopAbx op ll hh) = some (.crossing 4)) ∧
    ∀ op nn, tableEntry (.nopImm op nn) = some (.fixed 2) := by
  refine ⟨?_, ?_, ?_, ?_, ?_, ?_⟩
  all_goals
    intro op
    cases op <;> intros <;> rfl

/-- The meaning of every instruction is a regular function of the state. -/
theorem exec_regular (i : Instr) : ∃ run, (∀ s, exec i s = .next (run s)) ∧ Regular i run := by
  obtain ⟨hzpg, hanc, hzpx, himp, habx, himm⟩ := count_shared
  cases i with
  -- the shared constructors
  | nopZpg op nn =>
    exact ⟨_, fun _ => rfl, regular_executeRead (by simp) rfl (hzpg op nn) fun _ => rfl⟩
  | ancImm op nn =>
    exact ⟨_, fun _ => rfl, regular_executeRead (by simp) rfl (hanc op nn) fun _ => rfl⟩
  | nopZpx op nn =>
    exact ⟨_, fun _ => rfl, regular_executeRead (by simp) rfl (hzpx op nn) fun _ => rfl⟩
  | nopImp op => exact ⟨_, fun _ => rfl, regular_executeImp .refl rfl (himp op)⟩
  | nopAbx op ll hh =>
    exact ⟨_, fun _ => rfl, regular_executeRead (by simp) rfl (habx op ll hh) fun _ => rfl⟩
  | nopImm op nn =>
    exact ⟨_, fun _ => rfl, regular_executeRead (by simp) rfl (himm op nn) fun _ => rfl⟩
  | stp op => exact ⟨_, fun _ => rfl, regular_stop op⟩
  -- control and stack instructions
  | jmpAbs ll hh => exact ⟨_, fun _ => rfl, regular_jumpAbsolute ll hh⟩
  | jmpInd ll hh => exact ⟨_, fun _ => rfl, regular_jumpIndirect ll hh⟩
  | jsr ll hh => exact ⟨_, fun _ => rfl, regular_jumpSubroutine ll hh⟩
  | rts => exact ⟨_, fun _ => rfl, regular_returnSubroutine⟩
  | brk => exact ⟨_, fun _ => rfl, regular_softwareInterrupt⟩
  | rti => exact ⟨_, fun _ => rfl, regular_returnInterrupt⟩
  | pha => exact ⟨_, fun _ => rfl, regular_pushA⟩
  | php => exact ⟨_, fun _ => rfl, regular_pushP⟩
  | pla => exact ⟨_, fun _ => rfl, regular_pullA⟩
  | plp => exact ⟨_, fun _ => rfl, regular_pullP⟩
  | bpl dd | bmi dd | bvc dd | bvs dd | bcc dd | bcs dd | bne dd | beq dd =>
    exact ⟨_, fun _ => rfl, regular_branch (by simp [branchForms]) rfl rfl⟩
  -- the write discipline
  | staIzx | staZpg | staAbs | staIzy | staZpx | staAby | staAbx | stxZpg | stxAbs | stxZpy | styZpg
  | styAbs | styZpx | saxIzx | saxZpg | saxAbs | saxZpy =>
    exact ⟨_, fun _ => rfl, regular_executeWrite rfl rfl⟩
  | shaIzy | shaAby | shxAby | shyAbx =>
    exact ⟨_, fun _ => rfl, regular_executeHighStore .refl rfl rfl⟩
  | tasAby ll hh =>
    exact ⟨_, fun _ => rfl, regular_executeHighStore
      (fun t => registersOnly_update t t.a t.x t.y (t.a &&& t.x) (.refl _)) rfl rfl⟩
  -- the read-modify-write discipline
  | aslZpg | aslAbs | aslZpx | aslAbx | lsrZpg | lsrAbs | lsrZpx | lsrAbx | rolZpg | rolAbs | rolZpx
  | rolAbx | rorZpg | rorAbs | rorZpx | rorAbx | incZpg | incAbs | incZpx | incAbx | decZpg | decAbs
  | decZpx | decAbx | sloIzx | sloZpg | sloAbs | sloIzy | sloZpx | sloAby | sloAbx | rlaIzx | rlaZpg
  | rlaAbs | rlaIzy | rlaZpx | rlaAby | rlaAbx | sreIzx | sreZpg | sreAbs | sreIzy | sreZpx | sreAby
  | sreAbx | rraIzx | rraZpg | rraAbs | rraIzy | rraZpx | rraAby | rraAbx | dcpIzx | dcpZpg | dcpAbs
  | dcpIzy | dcpZpx | dcpAby | dcpAbx | iscIzx | iscZpg | iscAbs | iscIzy | iscZpx | iscAby | iscAbx =>
    exact ⟨_, fun _ => rfl, regular_executeRmw (by simp) rfl rfl⟩
  -- modes imp and acc
  | tax | tay | txa | tya | tsx | txs | inx | iny | dex | dey | clc | sec | cli | sei | clv | cld | sed
  | nop => exact ⟨_, fun _ => rfl, regular_executeImp (by simp) rfl rfl⟩
  | aslAcc => exact ⟨_, fun _ => rfl, regular_executeAcc sameBU_aslAlu rfl rfl⟩
  | lsrAcc => exact ⟨_, fun _ => rfl, regular_executeAcc sameBU_lsrAlu rfl rfl⟩
  | rolAcc => exact ⟨_, fun _ => rfl, regular_executeAcc sameBU_rolAlu rfl rfl⟩
  | rorAcc => exact ⟨_, fun _ => rfl, regular_executeAcc sameBU_rorAlu rfl rfl⟩
  -- the read discipline
  | _ => exact ⟨_, fun _ => rfl, regular_executeRead (by simp) rfl rfl fun _ => rfl⟩

/-- What follows from a meaning's being regular, for an instruction that has run. -/
theorem regular_of_exec {i : Instr} {s t : State} (h : exec i s = .next t) :
    ∃ run, Regular i run ∧ t = run s := by
  obtain ⟨run, hexec, hregular⟩ := exec_regular i
  rw [hexec] at h
  exact ⟨run, hregular, (Host.Outcome.next.inj h).symm⟩

/-! ### Services and steps -/

theorem sameBU_service (kind : Interrupt) (s : State) : SameBU s.p (service kind s).p := by
  rw [service_eq]
  exact sameBU_setFlag_i ..

theorem wf_service (kind : Interrupt) {s : State} (h : Memory.wf s.mem = true) :
    Memory.wf (service kind s).mem = true := by
  rw [service_eq]
  exact wf_pushBytes _ _ _ h

/-- A core that is not halted and runs no instruction services NMI, or IRQ when no NMI is pending (R470, R504). -/
theorem step_service {s : State} (hhalted : s.halted = false) (hrun : ¬ RunsInstruction s) :
    ∃ kind, (s.pendingNmi && kind != .nmi) = false ∧ step s = .next (service kind (beginStep s)) := by
  cases hnmi : s.pendingNmi with
  | true => exact ⟨.nmi, rfl, step_nmi hhalted hnmi⟩
  | false =>
    have hmasked : ¬ (s.pendingIrq = true → getFlag .i s.p = true) := fun h => hrun ⟨hhalted, hnmi, h⟩
    rw [Classical.not_imp, Bool.not_eq_true] at hmasked
    exact ⟨.irq, rfl, step_irq hhalted hnmi hmasked.1 hmasked.2⟩

/-- The three kinds of step, with what each does (R470). -/
theorem step_cases {s t : State} (h : step s = .next t) :
    (s.halted = true ∧ t = beginStep s) ∨
    (s.halted = false ∧ ¬ RunsInstruction s ∧
      ∃ kind, (s.pendingNmi && kind != .nmi) = false ∧ t = service kind (beginStep s)) ∨
    (RunsInstruction s ∧
      exec (decodeBytes (s.answerAt 0 s.pc) (s.answerAt 1 (s.pc + 1)) (s.answerAt 2 (s.pc + 2)))
        (afterOpcode s) = .next t) := by
  cases hhalted : s.halted with
  | true =>
    rw [step_halted hhalted] at h
    exact .inl ⟨rfl, (Host.Outcome.next.inj h).symm⟩
  | false =>
    by_cases hrun : RunsInstruction s
    · rw [step_instruction hrun, fetchInstr_beginStep] at h
      exact .inr (.inr ⟨hrun, h⟩)
    · obtain ⟨kind, hkind, hstep⟩ := step_service hhalted hrun
      rw [hstep] at h
      exact .inr (.inl ⟨rfl, hrun, kind, hkind, (Host.Outcome.next.inj h).symm⟩)

/-! ### STP -/

/-- The opcode bytes of STP (R79). -/
def stpOpcodes : List Byte :=
  [0x02#8, 0x12#8, 0x22#8, 0x32#8, 0x42#8, 0x52#8, 0x62#8, 0x72#8, 0x92#8, 0xB2#8, 0xD2#8, 0xF2#8]

/-- An opcode byte selects STP exactly when it is one of the twelve, whatever stands after it. -/
theorem isStp_decodeBytes (op b1 b2 : Byte) : isStp (decodeBytes op b1 b2) = true ↔ op ∈ stpOpcodes := by
  constructor
  · intro h
    have hop := headD_encode_decodeBytes op b1 b2
    revert h hop
    cases decodeBytes op b1 b2 with
    | stp o =>
      rintro - rfl
      cases o <;> decide
    | _ => exact fun h => absurd h Bool.false_ne_true
  · intro h
    have hall : ∀ o ∈ stpOpcodes, isStp (decodeBytes o b1 b2) = true := by
      simp only [stpOpcodes, List.forall_mem_cons, List.not_mem_nil, false_imp_iff, implies_true, and_true]
      exact ⟨rfl, rfl, rfl, rfl, rfl, rfl, rfl, rfl, rfl, rfl, rfl, rfl⟩
    exact hall op h

/-! ### The invariant -/

theorem Invariant.of_sameBU {s t : State} (h : Invariant s) (hBU : SameBU s.p t.p)
    (hwf : Memory.wf s.mem = true → Memory.wf t.mem = true) : Invariant t :=
  ⟨hwf h.1, hBU.2.trans h.2⟩

/-- Every step keeps B and U of P. -/
theorem sameBU_step {s t : State} (h : step s = .next t) : SameBU s.p t.p := by
  obtain ⟨-, rfl⟩ | ⟨-, -, kind, -, rfl⟩ | ⟨-, hexec⟩ := step_cases h
  · exact .refl _
  · exact sameBU_service kind (beginStep s)
  · obtain ⟨run, hregular, rfl⟩ := regular_of_exec hexec
    exact hregular.sameBU (afterOpcode s)

/-- Every step keeps the canonical form of memory. -/
theorem wf_step {s t : State} (h : step s = .next t) (hs : Memory.wf s.mem = true) :
    Memory.wf t.mem = true := by
  obtain ⟨-, rfl⟩ | ⟨-, -, kind, -, rfl⟩ | ⟨-, hexec⟩ := step_cases h
  · exact hs
  · exact wf_service kind hs
  · obtain ⟨run, hregular, rfl⟩ := regular_of_exec hexec
    exact hregular.wf (afterOpcode s) hs

theorem sameBU_hostReset (s : State) : SameBU s.p s.hostReset.p := sameBU_setFlag_i true s.p

end Sys2Proof.Machine

namespace Sys2Proof

open Machine

/-- Settles O8: every meaning is a function of the state. -/
theorem everyInstructionCompletes : Obligations.EveryInstructionCompletes := by
  intro i s
  obtain ⟨run, hexec, -⟩ := exec_regular i
  exact ⟨run s, hexec s⟩

/-- Settles O60: the count is one of the facts that make a meaning regular. -/
theorem everyInstructionMakesItsTabulatedAccesses :
    Obligations.EveryInstructionMakesItsTabulatedAccesses := by
  intro i s
  obtain ⟨run, hexec, hregular⟩ := exec_regular i
  exact ⟨run s, hexec s, hregular.counts s⟩

/-- Settles O9: a halted step and a service are states, and every meaning gives one. -/
theorem everyStepCompletes : Obligations.EveryStepCompletes := by
  intro s
  cases hhalted : s.halted with
  | true => exact ⟨_, step_halted hhalted⟩
  | false =>
    by_cases hrun : RunsInstruction s
    · rw [step_instruction hrun]
      exact everyInstructionCompletes _ _
    · obtain ⟨kind, -, hstep⟩ := step_service hhalted hrun
      exact ⟨_, hstep⟩

/-- Settles O13: the only write of a latch is the one NMI's service makes. -/
theorem onlyServiceTouchesTheLatches : Obligations.OnlyServiceTouchesTheLatches := by
  refine ⟨fun s t h => ?_, fun i s t h => ?_⟩
  · obtain ⟨hhalted, rfl⟩ | ⟨hhalted, -, kind, hkind, rfl⟩ | ⟨⟨hhalted, hnmi, -⟩, hexec⟩ := step_cases h
    · simp [hhalted]
    · rw [service_eq]
      exact ⟨rfl, by simpa [hhalted] using hkind⟩
    · obtain ⟨run, hregular, rfl⟩ := regular_of_exec hexec
      refine ⟨hregular.pendingIrq _, (hregular.pendingNmi _).trans ?_⟩
      simp [afterOpcode, hhalted, hnmi]
  · obtain ⟨run, hregular, rfl⟩ := regular_of_exec h
    exact ⟨hregular.pendingIrq s, hregular.pendingNmi s⟩

/-- Settles O14: no service halts the core, and of the instructions only STP does. -/
theorem onlyStpHalts : Obligations.OnlyStpHalts := by
  intro s t hs h
  obtain ⟨hhalted, -⟩ | ⟨-, hrun, kind, -, rfl⟩ | ⟨hrun, hexec⟩ := step_cases h
  · exact absurd (hs.symm.trans hhalted) Bool.false_ne_true
  · have hkept : (service kind (beginStep s)).halted = false := by
      rw [service_eq]
      exact hs
    simp [hkept, hrun]
  · obtain ⟨run, hregular, rfl⟩ := regular_of_exec hexec
    have hkept : (afterOpcode s).halted = false := hs
    rw [hregular.halted, hkept, Bool.false_or, isStp_decodeBytes]
    exact (and_iff_right hrun).symm

/-- Settles O15: services, resets and meanings keep both bits. -/
theorem nothingWritesBAndU : Obligations.NothingWritesBAndU :=
  ⟨fun _ _ h => sameBU_step h, sameBU_hostReset⟩

/-- Settles O16: the canonical form is kept by every write, and U by everything. -/
theorem everyTransitionKeepsTheInvariant : Obligations.EveryTransitionKeepsTheInvariant :=
  ⟨fun _ _ hs h => hs.of_sameBU (sameBU_step h) (wf_step h),
    fun s _ hs => ⟨hs.of_sameBU (sameBU_hostReset s) id, hs, hs⟩⟩

/-- Settles O17: memory is empty and P is $34, both by evaluation. -/
theorem resetSatisfiesTheInvariant : Obligations.ResetSatisfiesTheInvariant := ⟨wf_reset, by decide⟩

end Sys2Proof
end

section
/-! SUPPORT. What stands in memory at PC is what a step runs; the effect of a service; settles O6, O7, O11 and
O12. -/

namespace Sys2Proof.Machine

/-- A step runs the instruction that the bytes the bus answers at PC decode to (R472, R473). -/
theorem step_of_decode {s : State} {i : Instr} {rest : List Byte} (hrun : RunsInstruction s)
    (h : decode (bytesAtPc s) = .ok (i, rest)) : step s = exec i (afterOpcode s) := by
  obtain ⟨-, hi, -⟩ := (decode_cons_eq_ok_iff ..).mp h
  rw [step_instruction hrun, fetchInstr_beginStep, ← hi]
  rfl

theorem bytesAtPc_getElem (s : State) (k : Nat) (hk : k < (bytesAtPc s).length) :
    (bytesAtPc s)[k] = s.answerAt k (s.pc + addrOf k) := by
  have hk : k < 3 := hk
  match k with
  | 0 => simp [bytesAtPc]
  | 1 => rfl
  | 2 => rfl

/-- An encoding that stands in plain memory at PC is what the bus answers there, first byte to last. -/
theorem bytesAtPc_eq_encode_append {s : State} {i : Instr} (hplain : PlainBus s)
    (h : ∀ k (hk : k < (encode i).length), s.byteAt (s.pc + addrOf k) = (encode i)[k]) :
    bytesAtPc s = encode i ++ (bytesAtPc s).drop (encode i).length := by
  have hlen : (encode i).length ≤ (bytesAtPc s).length := by
    rw [encode_length, Nat.add_comm]
    exact Nat.succ_le_succ (operandBytes_le _)
  have htake : (bytesAtPc s).take (encode i).length = encode i := by
    refine List.ext_getElem (by simp [hlen]) fun k hk hk' => ?_
    rw [List.getElem_take, bytesAtPc_getElem, answerAt_plain hplain, h k hk']
  conv_lhs => rw [← List.take_append_drop (encode i).length (bytesAtPc s), htake]

/-! ### Services -/

theorem flagsKept_setFlag_i {s t : State} {on : Bool} (h : t.p = setFlag .i on s.p) : FlagsKept [.i] s t := by
  intro f hf
  rw [h, getFlag_setFlag, if_neg (by simpa using hf)]

theorem serviceEffect_service (kind : Interrupt) (s : State) :
    ServiceEffect kind.vector s (service kind (beginStep s)) := by
  rw [service_eq]
  refine ⟨rfl, rfl, rfl, rfl, stackedOnly_of_mem (by simp) rfl, ?_, flagsKept_setFlag_i (on := true) rfl,
    rfl, rfl, rfl, rfl, rfl⟩
  simp

/-- A service makes seven accesses (R505). -/
theorem service_work (kind : Interrupt) (s : State) : (service kind (beginStep s)).work = 7 := by
  rw [service_eq]
  rfl

end Sys2Proof.Machine

namespace Sys2Proof

open Machine

/-- Settles O6: the decoder sees the three bytes that the opcode fetch looks up. -/
theorem stepRunsTheDecodedInstruction : Obligations.StepRunsTheDecodedInstruction :=
  fun _ _ _ hrun h => step_of_decode hrun h

/-- Settles O7: the bytes at PC decode to the instruction, since they begin with its encoding. -/
theorem stepRunsTheInstructionStandingInMemory : Obligations.StepRunsTheInstructionStandingInMemory := by
  intro s i hrun hplain h
  refine step_of_decode hrun (rest := (bytesAtPc s).drop (encode i).length) ?_
  rw [bytesAtPc_eq_encode_append hplain h, List.drop_left, decode_encode_append]

/-- Settles O11: a service's effect is the same for NMI and IRQ but for the vector and the latch. -/
theorem nmiIsServicedFirst : Obligations.NmiIsServicedFirst := by
  intro s hhalted hnmi
  refine ⟨_, step_nmi hhalted hnmi, serviceEffect_service .nmi s, ?_, service_work .nmi s⟩
  simp [service_eq]

/-- Settles O12: the effect of O11 through the other vector; the level is no field a service writes. -/
theorem irqIsServicedWhenNotMasked : Obligations.IrqIsServicedWhenNotMasked := by
  intro s hhalted hnmi hirq hmask
  refine ⟨_, step_irq hhalted hnmi hirq hmask, serviceEffect_service .irq s, ?_, ?_, service_work .irq s⟩
  · simp [service_eq, hirq]
  · simp [service_eq, hnmi]

end Sys2Proof
end

section
/-! SUPPORT. Reset, the stack pointer, and memory; settles O18, O19, O20, O22, O23 and O24. -/

namespace Sys2Proof.Machine

/-! ### Reset -/

/-- `reset()` as one update of the state (R550 to R552). -/
theorem hostReset_eq (s : State) :
    s.hostReset =
      { s with
        pc := wordOf (s.answerAt 1 0xFFFD#16) (s.answerAt 0 0xFFFC#16)
        sp := s.sp - 3
        p := setFlag .i true s.p
        halted := false
        pendingNmi := false
        pendingIrq := false
        busInput := s.busInput.drop 2
        log := [rdAt s 0 0xFFFC#16, rdAt s 1 0xFFFD#16] } := by
  have hv : resetVector + 1 = 0xFFFD#16 := rfl
  simp only [State.hostReset, busReadWord_eq, hv]
  rfl

/-! ### The stack pointer -/

theorem stackSlot_succ (sp : Byte) : stackSlot (sp + 1) = addrOf (256 + (sp.toNat + 1) % 256) := by
  rw [stackSlot, BitVec.toNat_add]
  rfl

theorem foldl_push_sp (vs : List Byte) (s : State) :
    (vs.foldl (fun t v => push v t) s).sp = s.sp - BitVec.ofNat 8 vs.length := by
  induction vs generalizing s with
  | nil => simp
  | cons v vs ih =>
    rw [List.foldl_cons, ih, push_sp, BitVec.sub_sub, List.length_cons, Nat.add_comm, BitVec.ofNat_add]
    rfl

theorem push_accesses (v : Byte) (s : State) : Accesses [wr (stackSlot s.sp) v] s (push v s) := by
  rw [push_eq]
  exact ⟨rfl, rfl⟩

theorem push_storesOnly (v : Byte) (s : State) : StoresOnly (stackSlot s.sp) v s (push v s) :=
  ⟨by simp, fun a ha => by simp [ha]⟩

theorem pull_accesses (s : State) :
    Accesses [rd (stackSlot (s.sp + 1)) (pull s).1] s (pull s).2 := by
  rw [pull_eq]
  exact ⟨rfl, rfl⟩

/-! ### Canonical memories -/

/-- A canonical memory that reads as unlisted at an address lists nothing there, so its first address is another. -/
theorem Memory.head_ne_of_read {low k a : Nat} {v : Byte} {m : Memory}
    (h : Memory.wfFrom low ((k, v) :: m) = true)
    (hread : Memory.read ((k, v) :: m) a = Config.unlistedByte) : k ≠ a := by
  rintro rfl
  simp only [Memory.wfFrom, Bool.and_eq_true, bne_iff_ne] at h
  obtain ⟨⟨-, hv⟩, -⟩ := h
  exact hv (by simpa [Memory.read] using hread)

/-- Of two canonical memories that read alike, neither begins below the other: the first address of the one would be
unlisted in the other. -/
theorem Memory.head_le_head {low k k' : Nat} {v v' : Byte} {m m' : Memory}
    (h : Memory.wfFrom low ((k, v) :: m) = true) (h' : Memory.wfFrom low ((k', v') :: m') = true)
    (hread : ∀ a < 65536, Memory.read ((k, v) :: m) a = Memory.read ((k', v') :: m') a) : k' ≤ k := by
  by_contra hlt
  simp only [Memory.wfFrom, Bool.and_eq_true, decide_eq_true_eq] at h'
  have hk : k < 65536 := by omega
  have habove : Memory.wfFrom k' ((k', v') :: m') = true := by simp [Memory.wfFrom, h']
  exact Memory.head_ne_of_read h
    ((hread k hk).trans (Memory.read_below (Nat.not_le.mp hlt) _ habove)) rfl

/-- Canonical memories that read alike are the same list. -/
theorem Memory.eq_of_read_eq {low : Nat} {m m' : Memory} (h : Memory.wfFrom low m = true)
    (h' : Memory.wfFrom low m' = true) (hread : ∀ a < 65536, Memory.read m a = Memory.read m' a) : m = m' := by
  induction m generalizing low m' with
  | nil =>
    cases m' with
    | nil => rfl
    | cons c' m' =>
      have hk : c'.1 < 65536 := by
        simp only [Memory.wfFrom, Bool.and_eq_true, decide_eq_true_eq] at h'
        omega
      exact absurd rfl (Memory.head_ne_of_read h' (hread c'.1 hk).symm)
  | cons c m ih =>
    obtain ⟨k, v⟩ := c
    have htail := h
    simp only [Memory.wfFrom, Bool.and_eq_true, decide_eq_true_eq] at htail
    obtain ⟨⟨⟨-, hk⟩, -⟩, hm⟩ := htail
    cases m' with
    | nil => exact absurd rfl (Memory.head_ne_of_read h (hread k hk))
    | cons c' m' =>
      obtain ⟨k', v'⟩ := c'
      obtain rfl : k = k' := le_antisymm (Memory.head_le_head h' h fun a ha => (hread a ha).symm)
        (Memory.head_le_head h h' hread)
      simp only [Memory.wfFrom, Bool.and_eq_true] at h'
      obtain ⟨-, hm'⟩ := h'
      have hv : v = v' := by simpa [Memory.read] using hread k hk
      have htails : m = m' := ih hm hm' fun a ha => by
        by_cases hak : k = a
        · have hbelow : a < k + 1 := by omega
          rw [Memory.read_below hbelow m hm, Memory.read_below hbelow m' hm']
        · simpa [Memory.read, hak] using hread a ha
      rw [hv, htails]

end Sys2Proof.Machine

namespace Sys2Proof

open Machine

/-- Settles O18: each clause is a field of the state `hostReset_eq` gives. -/
theorem resetLoadsTheVectorAndMasksIrq : Obligations.ResetLoadsTheVectorAndMasksIrq := by
  intro s
  rw [hostReset_eq]
  refine ⟨?_, ?_, rfl, rfl, rfl, rfl, rfl, rfl⟩
  · rw [BitVec.toNat_sub]
    exact congrArg (· % 256) (Nat.add_comm 253 s.sp.toNat)
  · simp

/-- Settles O19: what `hostReset_eq` does not name stays. -/
theorem resetLeavesEverythingElse : Obligations.ResetLeavesEverythingElse := by
  intro s
  rw [hostReset_eq]
  exact ⟨rfl, rfl, rfl, flagsKept_setFlag_i (on := true) rfl, fun _ => rfl, rfl, rfl⟩

/-- Settles O20: the reset state is `reset()` of the power-on state, computed. -/
theorem resetStateIsPowerOnAfterReset : Obligations.ResetStateIsPowerOnAfterReset :=
  ⟨reset_eq_hostReset, rfl, rfl, rfl, rfl, rfl, rfl⟩

/-- Settles O22: the wraps are the general clauses at SP = $00 and $FF, and 256 pushes subtract 256. -/
theorem stackPointerWrapsInPageOne : Obligations.StackPointerWrapsInPageOne := by
  refine ⟨fun s v => ⟨?_, push_accesses v s, push_storesOnly v s⟩, fun s => ⟨?_, ?_, ?_, fun _ => rfl⟩,
    fun s v hsp => ?_, fun s hsp => ?_, fun s vs hvs => ?_⟩
  · rw [push_sp, BitVec.toNat_sub]
    exact congrArg (· % 256) (Nat.add_comm 255 s.sp.toNat)
  · rw [pull_eq, stackSlot_succ]
  · rw [pull_sp, BitVec.toNat_add]
    rfl
  · rw [← stackSlot_succ]
    exact pull_accesses s
  · rw [push_eq, hsp]
    exact ⟨rfl, rfl, Memory.read_write_same ..⟩
  · rw [pull_eq, hsp]
    exact ⟨rfl, rfl, rfl⟩
  · rw [foldl_push_sp, hvs]
    exact BitVec.sub_zero s.sp

/-- Settles O23: memory answers a read on plain memory; otherwise the head of `busInput` does. -/
theorem aReadReturnsTheLastWrite : Obligations.AReadReturnsTheLastWrite := by
  refine ⟨fun s a v hplain => ?_, fun s a b v hne => ?_, fun s a v rest h => ?_⟩
  · have hplain' : PlainBus (busWrite a v s) := hplain
    rw [busRead_value, busAnswer_eq, answerAt_plain hplain', byteAt_busWrite, if_pos rfl]
  · have hbyte : (busWrite a v s).byteAt b = s.byteAt b := by rw [byteAt_busWrite, if_neg hne]
    have hinput : (busWrite a v s).busInput = s.busInput := rfl
    rw [busRead_value, busRead_value, busAnswer_eq, busAnswer_eq, answerAt_of_mem hinput hbyte]
  · simp [busAnswer, h]

/-- Settles O24: the lists agree entry by entry, from the lowest address up. -/
theorem canonicalMemoriesThatReadAlikeAreEqual : Obligations.CanonicalMemoriesThatReadAlikeAreEqual := by
  intro m m' h h' hread
  refine Memory.eq_of_read_eq h h' fun a ha => ?_
  have haddr : (addrOf a).toNat = a := by rw [addrOf_toNat, Nat.mod_eq_of_lt ha]
  rw [← haddr]
  exact hread (addrOf a)

end Sys2Proof
end

section
/-! SUPPORT. Branches, jumps, subroutines, interrupt entry and return; settles O40, O41 and O43 to O48. -/

namespace Sys2Proof.Machine

/-- The accesses of a branch are reads. -/
@[simp] theorem branchAccesses_reads (f : Flag) (polarity : Bool) (dd : Byte) (s : State) :
    (branchAccesses f polarity dd s).filter (fun e => e.dir == .read) = branchAccesses f polarity dd s := by
  simp only [branchAccesses]
  repeat' split
  all_goals rfl

/-! ### What a return finds on the stack -/

/-- The place of the byte pushed `j` bytes before the last of `n` is `j + 1` above the stack pointer then. -/
theorem stackSlot_above {sp sp' : Byte} {n k j : Nat} (hsp : sp' = sp - BitVec.ofNat 8 n) (hjk : k + j = n) :
    stackSlot (sp' + BitVec.ofNat 8 j) = stackSlot (sp - BitVec.ofNat 8 k) := by
  have hadd : BitVec.ofNat 8 n = BitVec.ofNat 8 k + BitVec.ofNat 8 j := by rw [← hjk, BitVec.ofNat_add]
  rw [hsp, hadd, ← BitVec.sub_sub, BitVec.sub_add_cancel]

/-- After pushing `vs` each byte stands above the new stack pointer, the last one first. -/
theorem StackedOnly.byteAt_above {vs : List Byte} {s t : State} (h : StackedOnly vs s t)
    (hsp : t.sp = s.sp - BitVec.ofNat 8 vs.length) {j k : Nat} (hk : k < vs.length) (hjk : k + j = vs.length) :
    t.byteAt (stackSlot (t.sp + BitVec.ofNat 8 j)) = vs[k] := by
  rw [stackSlot_above hsp hjk]
  exact h.1 k hk

/-- RTI from a handler that left the stack alone goes back to the pushed address with the pushed P, whatever B the
push forced (R314, R509). -/
theorem rti_after_entry {s e h : State} {pc : Word} {b : Bool}
    (hstack : StackedOnly [highOf pc, lowOf pc, pushRepr b s.p] s e) (hsp : e.sp = s.sp - 3)
    (hBU : SameBU s.p e.p) (hplain : PlainBus h) (hleft : StackLeftAlone e h) :
    RunsTo .rti h fun t => t.pc = pc ∧ t.sp = s.sp ∧ t.p = s.p ∧ t.a = h.a ∧ t.x = h.x ∧ t.y = h.y := by
  obtain ⟨hhsp, hbytes, hb, hu⟩ := hleft
  have hp : h.byteAt (stackSlot (h.sp + 1)) = pushRepr b s.p := by
    rw [hhsp]
    exact (hbytes 1 le_rfl (by omega)).trans (hstack.byteAt_above (k := 2) hsp (by simp) rfl)
  have hlo : h.byteAt (stackSlot (h.sp + 2)) = lowOf pc := by
    rw [hhsp]
    exact (hbytes 2 (by omega) (by omega)).trans (hstack.byteAt_above (k := 1) hsp (by simp) rfl)
  have hhi : h.byteAt (stackSlot (h.sp + 3)) = highOf pc := by
    rw [hhsp]
    exact (hbytes 3 (by omega) le_rfl).trans (hstack.byteAt_above (k := 0) hsp (by simp) rfl)
  have hback : h.sp + 3 = s.sp := by rw [hhsp, hsp, BitVec.sub_add_cancel]
  refine ⟨returnInterrupt h, rfl, ?_⟩
  rw [returnInterrupt_eq]
  simp only [answerAt_plain hplain, hp, hlo, hhi, wordOf_high_low]
  exact ⟨trivial, hback, pullRepr_pushRepr b s.p h.p (hb.trans hBU.1) (hu.trans hBU.2), trivial, trivial,
    trivial⟩

/-- RTS with the stack as JSR left it goes back to the address after the one JSR pushed (R312). -/
theorem rts_after_call {s h : State} {pc : Word} (hstack : StackedOnly [highOf pc, lowOf pc] s h)
    (hsp : h.sp = s.sp - 2) (hplain : PlainBus h) :
    RunsTo .rts h fun t => t.pc = pc + 1 ∧ t.sp = s.sp ∧ t.p = h.p ∧ t.a = h.a ∧ t.x = h.x ∧ t.y = h.y := by
  have hlo : h.byteAt (stackSlot (h.sp + 1)) = lowOf pc := hstack.byteAt_above (k := 1) hsp (by simp) rfl
  have hhi : h.byteAt (stackSlot (h.sp + 2)) = highOf pc := hstack.byteAt_above (k := 0) hsp (by simp) rfl
  have hback : h.sp + 2 = s.sp := by rw [hsp, BitVec.sub_add_cancel]
  refine ⟨returnSubroutine h, rfl, ?_⟩
  rw [returnSubroutine_eq]
  simp only [answerAt_plain hplain, hlo, hhi, wordOf_high_low]
  exact ⟨trivial, hback, trivial, trivial, trivial, trivial⟩

end Sys2Proof.Machine

namespace Sys2Proof

open Machine

/-- Settles O40: the branch is the update `branch_eq` gives, and all its accesses are reads. -/
theorem branchesTestOneFlag : Obligations.BranchesTestOneFlag := by
  intro dd s b hb
  refine ⟨_, exec_branchForms dd s b hb, ?_⟩
  rw [branch_eq]
  refine ⟨rfl, ⟨rfl, ?_⟩, fun _ => rfl, ⟨rfl, rfl, rfl⟩, rfl, rfl, rfl, rfl, rfl⟩
  rw [branchAccesses_reads]
  rfl

/-- Settles O41: each clause is a field of the state `jumpAbsolute_eq` gives. -/
theorem jumpAbsoluteLoadsPc : Obligations.JumpAbsoluteLoadsPc := by
  intro ll hh s
  refine ⟨_, rfl, ?_⟩
  rw [jumpAbsolute_eq]
  exact ⟨rfl, ⟨rfl, rfl⟩, fun _ => rfl, ⟨rfl, rfl, rfl⟩, rfl, rfl, rfl, rfl, rfl⟩

/-- Settles O43: the third byte is read from the memory that the pushes left. -/
theorem jsrPushesTheAddressOfItsLastByte : Obligations.JsrPushesTheAddressOfItsLastByte := by
  intro ll hh s
  refine ⟨jumpSubroutine ll s, rfl, ?_⟩
  rw [jumpSubroutine_eq]
  exact ⟨rfl, rfl, stackedOnly_of_mem (by simp) rfl, ⟨rfl, rfl⟩, ⟨rfl, rfl, rfl⟩, rfl, rfl, rfl, rfl⟩

/-- Settles O44: the pulled word and 1, modulo 2^16; the rest is fields of `returnSubroutine_eq`. -/
theorem rtsPullsPcAndStepsPastIt : Obligations.RtsPullsPcAndStepsPastIt := by
  intro s
  refine ⟨returnSubroutine s, rfl, ?_⟩
  rw [returnSubroutine_eq]
  refine ⟨?_, rfl, ⟨rfl, rfl⟩, fun _ => rfl, ⟨rfl, rfl, rfl⟩, rfl, rfl, rfl, rfl⟩
  rw [BitVec.toNat_add, wordOf, addrOf_toNat]
  exact Nat.mod_add_mod ..

/-- Settles O45: RTS pulls the word JSR pushed, the address of the third byte, and steps past it. -/
theorem rtsReturnsPastTheCall : Obligations.RtsReturnsPastTheCall := by
  intro ll hh s where_ hplain
  refine ⟨jumpSubroutine ll s, rfl, ?_⟩
  rw [jumpSubroutine_eq]
  have hempty : s.busInput.drop 3 = [] := by rw [hplain, List.drop_nil]
  have hnext : s.pc + 1 + 1 = s.pc + 2 := by rw [BitVec.add_assoc]; rfl
  rw [← hnext]
  exact rts_after_call (stackedOnly_of_mem (by simp) rfl) rfl hempty

/-- Settles O46: the pushes of `softwareInterrupt_eq` stand on the stack, and of P only I is written. -/
theorem brkEntersTheHandler : Obligations.BrkEntersTheHandler := by
  intro s
  refine ⟨softwareInterrupt s, rfl, ?_⟩
  rw [softwareInterrupt_eq]
  refine ⟨rfl, rfl, stackedOnly_of_mem (by simp) rfl, ⟨rfl, rfl⟩, ?_, flagsKept_setFlag_i (on := true) rfl,
    ⟨rfl, rfl, rfl⟩, rfl, rfl, rfl⟩
  simp

/-- Settles O47: `pullRepr` keeps B and U; the rest is fields of `returnInterrupt_eq`. -/
theorem rtiRestoresStatusAndPc : Obligations.RtiRestoresStatusAndPc := by
  intro s
  refine ⟨returnInterrupt s, rfl, ?_⟩
  rw [returnInterrupt_eq]
  exact ⟨rfl, rfl, fun f => getFlag_pullRepr f _ _, ⟨rfl, rfl⟩, fun _ => rfl, ⟨rfl, rfl, rfl⟩, rfl, rfl, rfl⟩

/-- Settles O48: NMI, IRQ and BRK push PC and P alike, and RTI pulls what they pushed. -/
theorem rtiUndoesAnInterruptEntry : Obligations.RtiUndoesAnInterruptEntry := by
  refine ⟨fun s h kind hplain hleft => ?_, fun s => ⟨softwareInterrupt s, rfl, fun h hplain hleft => ?_⟩⟩
  · have hstack : StackedOnly [highOf s.pc, lowOf s.pc, pushRepr false s.p] s (service kind s) := by
      rw [service_eq]
      exact stackedOnly_of_mem (by simp) rfl
    have hsp : (service kind s).sp = s.sp - 3 := by rw [service_eq]
    exact rti_after_entry hstack hsp (sameBU_service kind s) hplain hleft
  · have hstack : StackedOnly [highOf (s.pc + 1), lowOf (s.pc + 1), pushRepr true s.p] s (softwareInterrupt s) := by
      rw [softwareInterrupt_eq]
      exact stackedOnly_of_mem (by simp) rfl
    have hsp : (softwareInterrupt s).sp = s.sp - 3 := by rw [softwareInterrupt_eq]
    exact rti_after_entry hstack hsp (regular_softwareInterrupt.sameBU s) hplain hleft

end Sys2Proof
end

section
/-! SUPPORT. The flags of a status byte that an instruction has written, against the statements' terms; the stack and
flag instructions; settles O49, O50, O51 and O53. -/

namespace Sys2Proof.Machine

/-! ### Flags -/

theorem nzOf_setNz {v p : Byte} {t : State} (h : t.p = setNz v p) : NzOf v t := by
  rw [NzOf, h]
  simp [bit7_eq, isZero_eq]

theorem flagsKept_setNz {v : Byte} {s t : State} (h : t.p = setNz v s.p) : FlagsKept [.n, .z] s t := by
  simp +contextual [FlagsKept, h]

theorem flagsKept_setNz_setFlag_c {v : Byte} {on : Bool} {s t : State}
    (h : t.p = setNz v (setFlag .c on s.p)) : FlagsKept [.c, .n, .z] s t := by
  simp +contextual [FlagsKept, h]

theorem getFlag_c_setNz_setFlag_c {v p : Byte} {on : Bool} {t : State}
    (h : t.p = setNz v (setFlag .c on p)) : getFlag .c t.p = on := by
  simp [h]

/-! ### The flag instructions -/

theorem flagsKept_flagBody (f : Flag) (on : Bool) (s : State) : FlagsKept [f] s (flagBody f on s) := by
  simp +contextual [FlagsKept, flagBody]

/-- A flag instruction writes its flag and makes the dummy read of pattern IMP (R344 to R350). -/
theorem runsTo_flagBody {i : Instr} {f : Flag} {on : Bool} {s : State} (hf : f ≠ .b ∧ f ≠ .u)
    (hexec : exec i s = .next (executeImp (flagBody f on) s)) :
    RunsTo i s fun t => getFlag f t.p = on ∧ FlagsKept [f] s t ∧ ImpliedFrame s t ∧ SameControl s t ∧
      t.a = s.a ∧ t.x = s.x ∧ t.y = s.y ∧ t.sp = s.sp := by
  obtain ⟨hframe, hcontrol⟩ := impliedFrame_executeImp (registersOnly_flagBody hf on) s
  refine ⟨_, hexec, ?_, flagsKept_flagBody f on _, hframe, hcontrol, rfl, rfl, rfl, rfl⟩
  simp [executeImp, flagBody]

end Sys2Proof.Machine

namespace Sys2Proof

open Machine

/-- Settles O49: a push is one byte on the stack; P is pushed with B and U forced. -/
theorem pushesWriteOneStackByte : Obligations.PushesWriteOneStackByte := by
  intro s
  simp only [List.forall_mem_cons, List.not_mem_nil, false_imp_iff, implies_true, and_true]
  refine ⟨⟨pushA s, rfl, ?_⟩, ⟨pushP s, rfl, ?_⟩⟩
  · rw [pushA_eq]
    exact ⟨rfl, stackedOnly_of_mem (by simp) rfl, ⟨rfl, rfl⟩, rfl, ⟨rfl, rfl, rfl⟩, rfl, rfl, rfl, rfl⟩
  · rw [pushP_eq]
    exact ⟨rfl, stackedOnly_of_mem (by simp) rfl, ⟨rfl, rfl⟩, rfl, ⟨rfl, rfl, rfl⟩, rfl, rfl, rfl, rfl⟩

/-- Settles O50: both pull through `afterPull`; only what they do with the byte differs. -/
theorem pullsReadOneStackByte : Obligations.PullsReadOneStackByte := by
  intro s
  refine ⟨⟨pullA s, rfl, ?_⟩, ⟨pullP s, rfl, ?_⟩⟩
  · rw [pullA_eq]
    exact ⟨rfl, nzOf_setNz rfl, flagsKept_setNz rfl, rfl, ⟨rfl, rfl⟩, fun _ => rfl, rfl, ⟨rfl, rfl, rfl⟩, rfl, rfl⟩
  · rw [pullP_eq]
    exact ⟨rfl, ⟨rfl, ⟨rfl, rfl⟩, fun _ => rfl, rfl, ⟨rfl, rfl, rfl⟩, rfl, rfl⟩, fun f => getFlag_pullRepr f _ _⟩

/-- Settles O51: the seven are one body, for a flag that is neither B nor U. -/
theorem flagInstructionsWriteOneFlag : Obligations.FlagInstructionsWriteOneFlag := by
  intro s
  simp only [List.forall_mem_cons, List.not_mem_nil, false_imp_iff, implies_true, and_true]
  refine ⟨?_, ?_, ?_, ?_, ?_, ?_, ?_⟩
  all_goals exact runsTo_flagBody (by decide) rfl

/-- Settles O53: `stopBody` after the dummy read. -/
theorem stpHalts : Obligations.StpHalts := by
  intro o s
  refine ⟨executeImp stopBody s, rfl, ?_⟩
  rw [executeImp_eq]
  exact ⟨rfl, ⟨BitVec.add_zero s.pc, ⟨rfl, rfl⟩, fun _ => rfl⟩, rfl, rfl, rfl, rfl, rfl, rfl, rfl⟩

end Sys2Proof
end

section
/-! SUPPORT. The ALU functions as numbers: sums and differences with their signed meaning, shifts and rotates, and the
bits of a byte that the flags copy. -/

namespace Sys2Proof.Machine

/-! ### Bits of a byte -/

theorem bit0_eq (v : Byte) : v.getLsbD 0 = decide (v.toNat % 2 = 1) := by
  rw [BitVec.getLsbD, Nat.testBit_zero]

theorem bit6_eq (v : Byte) : v.getLsbD 6 = decide (v.toNat % 128 ≥ 64) := by
  rw [BitVec.getLsbD, Nat.testBit_eq_decide_div_mod_eq]
  congr 1
  rw [eq_iff_iff]
  omega

theorem getLsbD7_eq (v : Byte) : v.getLsbD 7 = decide (v.toNat ≥ 128) := bit7_eq v

theorem complement_toNat (v : Byte) : (v ^^^ 0xFF#8).toNat = 255 - v.toNat := by
  have hnot : v ^^^ 0xFF#8 = ~~~v := BitVec.xor_allOnes
  rw [hnot, BitVec.toNat_not]

/-- The signed value of a byte is read off bit 7. -/
theorem toInt_eq (v : Byte) : v.toInt = if v.toNat ≥ 128 then (v.toNat : Int) - 256 else v.toNat := by
  rw [BitVec.toInt_eq_toNat_cond]
  split <;> split <;> omega

/-! ### Sums and differences (R103, R104) -/

theorem adcAlu_toNat (a v p : Byte) :
    (adcAlu a v p).1.toNat = (a.toNat + v.toNat + (getFlag .c p).toNat) % 256 :=
  BitVec.toNat_ofNat ..

/-- The mask test of R103 looks at the three signs. -/
theorem overflow_mask_eq (a v r : Byte) : ((a ^^^ r) &&& (v ^^^ r) &&& 0x80#8 != 0) =
    ((a.getLsbD 7 ^^ r.getLsbD 7) && (v.getLsbD 7 ^^ r.getLsbD 7)) := by
  have h := bit7_eq_mask ((a ^^^ r) &&& (v ^^^ r))
  rw [BitVec.getLsbD_and, BitVec.getLsbD_xor, BitVec.getLsbD_xor] at h
  rw [h, bne, beq_eq_decide, decide_not]

/-- The sign of the sum differs from both operands' signs exactly when the signed sum leaves -128..127. -/
theorem overflow_signs_eq (a v r : Byte) (c : Bool) (hr : r.toNat = (a.toNat + v.toNat + c.toNat) % 256) :
    ((a.getLsbD 7 ^^ r.getLsbD 7) && (v.getLsbD 7 ^^ r.getLsbD 7)) =
      decide (a.toInt + v.toInt + (c.toNat : Int) < -128 ∨ 127 < a.toInt + v.toInt + (c.toNat : Int)) := by
  have := a.isLt
  have := v.isLt
  have hc : c.toNat ≤ 1 := Bool.toNat_le c
  rw [getLsbD7_eq, getLsbD7_eq, getLsbD7_eq, toInt_eq, toInt_eq]
  rw [Bool.eq_iff_iff]
  simp only [Bool.and_eq_true, Bool.xor_iff_ne, ne_eq, decide_eq_decide, decide_eq_true_eq]
  split <;> split <;> omega

theorem addResult_of_adcAlu {a v p : Byte} {t : State} (ha : t.a = (adcAlu a v p).1)
    (hp : t.p = (adcAlu a v p).2) : AddResult a v (getFlag .c p) t := by
  have hformula : getFlag .v t.p = (((a ^^^ t.a) &&& (v ^^^ t.a) &&& 0x80#8) != 0) := by
    rw [hp, ha, getFlag_adcAlu]
    rfl
  refine ⟨ha ▸ adcAlu_toNat a v p, ?_, hformula, ?_, ha ▸ nzOf_setNz hp⟩
  · rw [hp, getFlag_adcAlu]
    rfl
  · rw [hformula, overflow_mask_eq, overflow_signs_eq a v t.a (getFlag .c p) (ha ▸ adcAlu_toNat a v p)]

/-- Adding the complement is subtracting with borrow (R104). -/
theorem subResult_of_addResult {a v : Byte} {c : Bool} {t : State} (h : AddResult a (v ^^^ 0xFF#8) c t) :
    SubResult a v c t := by
  obtain ⟨ha, hc, -, hv, -⟩ := h
  have := v.isLt
  have hcomp := complement_toNat v
  have hint : (v ^^^ 0xFF#8).toInt = -1 - v.toInt := by
    rw [toInt_eq, toInt_eq, hcomp]
    split <;> split <;> omega
  have hle : c.toNat ≤ 1 := Bool.toNat_le c
  refine ⟨?_, ?_, ?_⟩
  · rw [ha, hcomp]
    omega
  · rw [hc, hcomp]
    congr 1
    rw [eq_iff_iff]
    omega
  · rw [hv, hint]
    congr 1
    rw [eq_iff_iff]
    omega

theorem flagsKept_adcAlu {a v : Byte} {s t : State} (hp : t.p = (adcAlu a v s.p).2) :
    FlagsKept [.c, .v, .n, .z] s t := by
  simp +contextual [FlagsKept, hp]

/-! ### Comparing (R105) -/

theorem compareResult_of_compareFlags {reg v p : Byte} {t : State} (h : t.p = compareFlags reg v p) :
    CompareResult reg v t :=
  ⟨getFlag_c_setNz_setFlag_c h, nzOf_setNz h⟩

/-! ### BIT (R112) -/

theorem flagsKept_bitFlags {a v : Byte} {s t : State} (hp : t.p = bitFlags a v s.p) :
    FlagsKept [.n, .v, .z] s t := by
  simp +contextual [FlagsKept, hp]

/-! ### Shifts and rotates (R106 to R109) -/

theorem aslAlu_toNat (v p : Byte) : (aslAlu v p).1.toNat = 2 * v.toNat % 256 := by
  rw [aslAlu, BitVec.toNat_shiftLeft, Nat.shiftLeft_eq, Nat.mul_comm]

theorem lsrAlu_toNat (v p : Byte) : (lsrAlu v p).1.toNat = v.toNat / 2 := by
  rw [lsrAlu, BitVec.toNat_ushiftRight, Nat.shiftRight_eq_div_pow]

/-- Joining a bit into a byte whose bit there is 0 adds it. -/
theorem or_twoPow_toNat {x : Byte} {k : Nat} (h : x.getLsbD k = false) (on : Bool) :
    (x ||| (if on then BitVec.twoPow 8 k else 0#8)).toNat = (x.toNat + 2 ^ k * on.toNat) % 256 := by
  cases on with
  | false => simp [Nat.mod_eq_of_lt x.isLt]
  | true =>
    have hdisjoint : x &&& BitVec.twoPow 8 k = 0#8 := by
      simp only [BitVec.and_twoPow, h, Bool.false_eq_true, if_false]
    rw [if_pos rfl, ← BitVec.add_eq_or_of_and_eq_zero x _ hdisjoint, BitVec.toNat_add, BitVec.toNat_twoPow,
      Bool.toNat_true, Nat.mul_one, Nat.add_mod_mod]

theorem rolAlu_toNat (v p : Byte) : (rolAlu v p).1.toNat = (2 * v.toNat + (getFlag .c p).toNat) % 256 := by
  have hbit : (v <<< 1).getLsbD 0 = false := by simp
  have hsum : (rolAlu v p).1.toNat = ((v <<< 1).toNat + 2 ^ 0 * (getFlag .c p).toNat) % 256 :=
    or_twoPow_toNat hbit _
  rw [hsum, BitVec.toNat_shiftLeft, Nat.shiftLeft_eq]
  omega

theorem rorAlu_toNat (v p : Byte) : (rorAlu v p).1.toNat = v.toNat / 2 + 128 * (getFlag .c p).toNat := by
  have := v.isLt
  have hbit : (v >>> 1).getLsbD 7 = false := by simp
  have hsum : (rorAlu v p).1.toNat = ((v >>> 1).toNat + 2 ^ 7 * (getFlag .c p).toNat) % 256 :=
    or_twoPow_toNat hbit _
  have hle : (getFlag .c p).toNat ≤ 1 := Bool.toNat_le _
  rw [hsum, BitVec.toNat_ushiftRight, Nat.shiftRight_eq_div_pow]
  omega

/-- The bit shifted out to the left is bit 7. -/
theorem aslAlu_flags (v p : Byte) :
    (aslAlu v p).2 = setNz (aslAlu v p).1 (setFlag .c (decide (v.toNat ≥ 128)) p) := by
  rw [← getLsbD7_eq]
  rfl

/-- The bit shifted out to the right is bit 0. -/
theorem lsrAlu_flags (v p : Byte) :
    (lsrAlu v p).2 = setNz (lsrAlu v p).1 (setFlag .c (decide (v.toNat % 2 = 1)) p) := by
  rw [← bit0_eq]
  rfl

theorem rolAlu_flags (v p : Byte) :
    (rolAlu v p).2 = setNz (rolAlu v p).1 (setFlag .c (decide (v.toNat ≥ 128)) p) := by
  rw [← getLsbD7_eq]
  rfl

theorem rorAlu_flags (v p : Byte) :
    (rorAlu v p).2 = setNz (rorAlu v p).1 (setFlag .c (decide (v.toNat % 2 = 1)) p) := by
  rw [← bit0_eq]
  rfl

/-- Bit 7 of a byte shifted right is clear, so N is. -/
theorem getFlag_n_lsrAlu (v p : Byte) : getFlag .n (lsrAlu v p).2 = false := by
  have hbit : (v >>> 1).getLsbD 7 = false := by simp
  rw [lsrAlu, getFlag_setNz, if_pos rfl, hbit]

/-! ### A shift followed by an operation on A -/

section
variable {a v r p q : Byte} {out : Bool} {s t : State}

/-- Combining the shifted byte into A leaves the shift's C. -/
theorem getFlag_c_of_shift (hp : t.p = setNz a q) (hq : q = setNz r (setFlag .c out p)) :
    getFlag .c t.p = out := by
  simp [hp, hq]

theorem flagsKept_of_shift (hp : t.p = setNz a q) (hq : q = setNz r (setFlag .c out s.p)) :
    FlagsKept [.c, .n, .z] s t := by
  simp +contextual [FlagsKept, hp, hq]

/-- Adding the shifted byte to A adds the bit shifted out. -/
theorem addResult_of_shift (ha : t.a = (adcAlu a v q).1) (hp : t.p = (adcAlu a v q).2)
    (hq : q = setNz r (setFlag .c out p)) : AddResult a v out t := by
  have hcarry : getFlag .c q = out := by simp [hq]
  exact hcarry ▸ addResult_of_adcAlu ha hp

theorem flagsKept_adcAlu_of_shift (hp : t.p = (adcAlu a v q).2) (hq : q = setNz r (setFlag .c out s.p)) :
    FlagsKept [.c, .v, .n, .z] s t := by
  simp +contextual [FlagsKept, hp, hq]

end

/-! ### ANC and ARR (R420, R422) -/

theorem getFlag_c_ancAlu (a v p : Byte) : getFlag .c (ancAlu a v p).2 = getFlag .n (ancAlu a v p).2 := by
  simp [ancAlu]

theorem nzOf_ancAlu {a v p : Byte} {t : State} (ha : t.a = (ancAlu a v p).1) (hp : t.p = (ancAlu a v p).2) :
    NzOf t.a t := by
  rw [NzOf, ← getLsbD7_eq, ← isZero_eq, hp, ha]
  simp [ancAlu]

theorem flagsKept_ancAlu {a v : Byte} {s t : State} (hp : t.p = (ancAlu a v s.p).2) :
    FlagsKept [.c, .n, .z] s t := by
  simp +contextual [FlagsKept, hp, ancAlu]

theorem getFlag_c_arrAlu (a v p : Byte) : getFlag .c (arrAlu a v p).2 = (arrAlu a v p).1.getLsbD 6 := by
  simp [arrAlu]

theorem getFlag_v_arrAlu (a v p : Byte) : getFlag .v (arrAlu a v p).2 =
    ((arrAlu a v p).1.getLsbD 6 ^^ (arrAlu a v p).1.getLsbD 5) := by
  simp [arrAlu]

theorem nzOf_arrAlu {a v p : Byte} {t : State} (ha : t.a = (arrAlu a v p).1) (hp : t.p = (arrAlu a v p).2) :
    NzOf t.a t := by
  rw [NzOf, ← getLsbD7_eq, ← isZero_eq, hp, ha]
  simp [arrAlu]

theorem flagsKept_arrAlu {a v : Byte} {s t : State} (hp : t.p = (arrAlu a v s.p).2) :
    FlagsKept [.c, .v, .n, .z] s t := by
  simp +contextual [FlagsKept, hp, arrAlu]

/-! ### Increment and decrement (R110) -/

theorem add_one_toNat (v : Byte) : (v + 1).toNat = (v.toNat + 1) % 256 := BitVec.toNat_add v 1

theorem sub_one_toNat (v : Byte) : (v - 1).toNat = (v.toNat + 255) % 256 := by
  rw [BitVec.toNat_sub]
  exact congrArg (· % 256) (Nat.add_comm 255 v.toNat)

end Sys2Proof.Machine
end

section
/-! SUPPORT. The forms of each mnemonic: a form's effect is its body's effect on registers and flags beside its
executor's frame; settles O26 to O30, O32 to O39, O52 and O54 to O58. -/

namespace Sys2Proof.Machine

/-! ### From an executor to a statement -/

/-- A form of the read discipline: what is left to show is about the body's result. -/
theorem runsTo_executeRead {i : Instr} {o : Operand} {body : Byte → State → State} {s : State} {q : State → Prop}
    (hbody : ∀ v t, RegistersOnly t (body v t)) (hexec : exec i s = .next (executeRead o body s))
    (hq : ∀ t, t = body (operandByte o s) (afterReads (operandAccesses o s) (operandSize o) s) →
      ReadFrame o s t → q t) : RunsTo i s q :=
  ⟨_, hexec, hq _ (executeRead_eq o body s) (readFrame_executeRead hbody o s)⟩

theorem runsTo_executeWrite {i : Instr} {m : MemOperand} {byte : State → Byte} {s : State} {q : State → Prop}
    (hexec : exec i s = .next (executeWrite m byte s))
    (hq : ∀ t, t = busWrite (effAddr m s) (byte (afterReads (modeAccesses m .write s) (memSize m) s))
        (afterReads (modeAccesses m .write s) (memSize m) s) →
      WriteFrame m (byte (afterReads (modeAccesses m .write s) (memSize m) s)) s t → q t) : RunsTo i s q :=
  ⟨_, hexec, hq _ (executeWrite_eq m byte s) (writeFrame_executeWrite m byte s)⟩

theorem runsTo_executeRmw {i : Instr} {m : MemOperand} {body : Byte → State → Byte × State} {s : State}
    {q : State → Prop} (hbody : ∀ v t, RegistersOnly t (body v t).2)
    (hexec : exec i s = .next (executeRmw m body s))
    (hq : ∀ t, t = busWrite (effAddr m s) (body (memByte m .rmw s) (beforeRmwBody m s)).1
        (body (memByte m .rmw s) (beforeRmwBody m s)).2 →
      RmwFrame m (body (memByte m .rmw s) (beforeRmwBody m s)).1 s t → q t) : RunsTo i s q :=
  ⟨_, hexec, hq _ (executeRmw_eq_body m body s) (rmwFrame_executeRmw hbody m s)⟩

theorem runsTo_executeImp {i : Instr} {body : State → State} {s : State} {q : State → Prop}
    (hbody : ∀ t, RegistersOnly t (body t)) (hexec : exec i s = .next (executeImp body s))
    (hq : ∀ t, t = body (afterReads [rdAt s 0 s.pc] 0 s) → ImpliedFrame s t → SameControl s t → q t) :
    RunsTo i s q :=
  ⟨_, hexec, hq _ (executeImp_eq body s) (impliedFrame_executeImp hbody s).1 (impliedFrame_executeImp hbody s).2⟩

theorem runsTo_executeAcc {i : Instr} {f : Byte → Byte → Byte × Byte} {s : State} {q : State → Prop}
    (hexec : exec i s = .next (executeAcc f s))
    (hq : ∀ t, t = { afterReads [rdAt s 0 s.pc] 0 s with a := (f s.a s.p).1, p := (f s.a s.p).2 } →
      ImpliedFrame s t → SameControl s t → q t) : RunsTo i s q :=
  ⟨_, hexec, hq _ (executeAcc_eq f s) (impliedFrame_executeAcc f s).1 (impliedFrame_executeAcc f s).2⟩

end Sys2Proof.Machine

namespace Sys2Proof

open Machine

/-! ### Loads, stores and transfers -/

/-- Settles O26: the four bodies write their register and N and Z; the frame is the executor's. -/
theorem loadsLoadTheOperandByte : Obligations.LoadsLoadTheOperandByte := by
  intro nn ll hh s
  refine ⟨fun f hf => runsTo_executeRead registersOnly_loadA (exec_ldaForms nn ll hh s f hf) ?_,
    fun f hf => runsTo_executeRead registersOnly_loadX (exec_ldxForms nn ll hh s f hf) ?_,
    fun f hf => runsTo_executeRead registersOnly_loadY (exec_ldyForms nn ll hh s f hf) ?_,
    fun f hf => runsTo_executeRead registersOnly_laxBody (exec_laxForms nn ll hh s f hf) ?_⟩
  all_goals rintro t rfl hframe
  case refine_4 => exact ⟨rfl, rfl, nzOf_setNz rfl, flagsKept_setNz rfl, rfl, rfl, hframe⟩
  all_goals exact ⟨rfl, nzOf_setNz rfl, flagsKept_setNz rfl, rfl, rfl, rfl, hframe⟩

/-- Settles O27: the byte is read off registers that the accesses of the mode leave alone. -/
theorem storesStoreTheRegister : Obligations.StoresStoreTheRegister := by
  intro nn ll hh s
  refine ⟨fun f hf => runsTo_executeWrite (exec_staForms nn ll hh s f hf) ?_,
    fun f hf => runsTo_executeWrite (exec_stxForms nn ll hh s f hf) ?_,
    fun f hf => runsTo_executeWrite (exec_styForms nn ll hh s f hf) ?_,
    fun f hf => runsTo_executeWrite (exec_saxForms nn ll hh s f hf) ?_⟩
  all_goals
    rintro t rfl hframe
    exact ⟨hframe, rfl, rfl, rfl, rfl, rfl⟩

/-- Settles O28: the first five load a register from another; TXS writes no flag. -/
theorem transfersMoveARegister : Obligations.TransfersMoveARegister := by
  intro s
  refine ⟨runsTo_executeImp registersOnly_taxBody rfl ?_, runsTo_executeImp registersOnly_tayBody rfl ?_,
    runsTo_executeImp registersOnly_txaBody rfl ?_, runsTo_executeImp registersOnly_tyaBody rfl ?_,
    runsTo_executeImp registersOnly_tsxBody rfl ?_, runsTo_executeImp registersOnly_txsBody rfl ?_⟩
  all_goals rintro t rfl hframe hcontrol
  case refine_6 => exact ⟨rfl, rfl, rfl, rfl, rfl, rfl, hframe, hcontrol⟩
  all_goals exact ⟨rfl, ⟨nzOf_setNz rfl, flagsKept_setNz rfl⟩, rfl, rfl, rfl, rfl, hframe, hcontrol⟩

/-! ### Arithmetic, logic and compares -/

/-- Settles O29: the body is `adcAlu`, whose result is the sum of R103. -/
theorem adcAddsWithCarry : Obligations.AdcAddsWithCarry := by
  intro nn ll hh s f hf
  refine runsTo_executeRead registersOnly_adc (exec_adcForms nn ll hh s f hf) ?_
  rintro t rfl hframe
  exact ⟨addResult_of_adcAlu rfl rfl, flagsKept_adcAlu rfl, rfl, rfl, rfl, hframe⟩

/-- Settles O30: SBC is ADC of the complement. -/
theorem sbcSubtractsWithBorrow : Obligations.SbcSubtractsWithBorrow := by
  intro nn ll hh s f hf
  refine runsTo_executeRead registersOnly_sbc (exec_sbcForms nn ll hh s f hf) ?_
  rintro t rfl hframe
  have hadd := addResult_of_adcAlu (a := s.a) (v := operandByte f.2 s ^^^ 0xFF#8) (p := s.p)
    (t := sbc (operandByte f.2 s) (afterReads (operandAccesses f.2 s) (operandSize f.2) s)) rfl rfl
  exact ⟨hadd, subResult_of_addResult hadd, flagsKept_adcAlu rfl, rfl, rfl, rfl, hframe⟩

/-- Settles O32: the three bodies load A with a bitwise operation on it. -/
theorem logicWorksBitByBit : Obligations.LogicWorksBitByBit := by
  intro nn ll hh s
  refine ⟨fun f hf => runsTo_executeRead registersOnly_and8 (exec_andForms nn ll hh s f hf) ?_,
    fun f hf => runsTo_executeRead registersOnly_ora8 (exec_oraForms nn ll hh s f hf) ?_,
    fun f hf => runsTo_executeRead registersOnly_eor8 (exec_eorForms nn ll hh s f hf) ?_⟩
  all_goals
    rintro t rfl hframe
    refine ⟨⟨nzOf_setNz rfl, flagsKept_setNz rfl, rfl, rfl, rfl, hframe⟩, fun k => ?_⟩
  · exact BitVec.getLsbD_and
  · exact BitVec.getLsbD_or
  · exact BitVec.getLsbD_xor

/-- Settles O33: `bitFlags` copies bits 7 and 6 and tests the and of A and the operand. -/
theorem bitTestsTheOperand : Obligations.BitTestsTheOperand := by
  intro nn ll hh s f hf
  refine runsTo_executeRead registersOnly_bitTest (exec_bitForms nn ll hh s f hf) ?_
  rintro t rfl hframe
  refine ⟨?_, ?_, ?_, flagsKept_bitFlags rfl, rfl, rfl, rfl, rfl, hframe⟩
  · simp [beq_eq_decide]
  · rw [← getLsbD7_eq]
    simp
  · rw [← bit6_eq]
    simp

/-- Settles O34: the four compare through the same flags. -/
theorem comparesSetCarryWhenNotBelow : Obligations.ComparesSetCarryWhenNotBelow := by
  intro nn ll hh s
  refine ⟨fun f hf => runsTo_executeRead registersOnly_cmpA (exec_cmpForms nn ll hh s f hf) ?_,
    fun f hf => runsTo_executeRead registersOnly_cmpX (exec_cpxForms nn ll hh s f hf) ?_,
    fun f hf => runsTo_executeRead registersOnly_cmpY (exec_cpyForms nn ll hh s f hf) ?_,
    fun f hf => runsTo_executeRmw registersOnly_dcpBody (exec_dcpForms nn ll hh s f hf) ?_⟩
  case refine_4 =>
    rintro t rfl hframe
    exact ⟨_, sub_one_toNat _, compareResult_of_compareFlags rfl,
      ⟨flagsKept_setNz_setFlag_c rfl, rfl, rfl, rfl, rfl⟩, hframe⟩
  all_goals
    rintro t rfl hframe
    exact ⟨compareResult_of_compareFlags rfl, ⟨flagsKept_setNz_setFlag_c rfl, rfl, rfl, rfl, rfl⟩, hframe⟩

/-! ### Increments, shifts and rotates -/

/-- Settles O35: the two bodies are 1 added and 1 subtracted modulo 256. -/
theorem incAndDecStepTheByte : Obligations.IncAndDecStepTheByte := by
  intro nn ll hh s
  refine ⟨fun f hf => runsTo_executeRmw registersOnly_inc (exec_incForms nn ll hh s f hf) ?_,
    fun f hf => runsTo_executeRmw registersOnly_dec (exec_decForms nn ll hh s f hf) ?_⟩
  all_goals rintro t rfl hframe
  · exact ⟨_, add_one_toNat _, nzOf_setNz rfl, flagsKept_setNz rfl, rfl, rfl, rfl, rfl, hframe⟩
  · exact ⟨_, sub_one_toNat _, nzOf_setNz rfl, flagsKept_setNz rfl, rfl, rfl, rfl, rfl, hframe⟩

/-- Settles O36: the four bodies load a register with itself plus or minus 1. -/
theorem indexRegistersStepByOne : Obligations.IndexRegistersStepByOne := by
  intro s
  refine ⟨runsTo_executeImp registersOnly_inxBody rfl ?_, runsTo_executeImp registersOnly_inyBody rfl ?_,
    runsTo_executeImp registersOnly_dexBody rfl ?_, runsTo_executeImp registersOnly_deyBody rfl ?_⟩
  all_goals rintro t rfl hframe hcontrol
  · exact ⟨add_one_toNat s.x, rfl, nzOf_setNz rfl, flagsKept_setNz rfl, rfl, rfl, hframe, hcontrol⟩
  · exact ⟨add_one_toNat s.y, rfl, nzOf_setNz rfl, flagsKept_setNz rfl, rfl, rfl, hframe, hcontrol⟩
  · exact ⟨sub_one_toNat s.x, rfl, nzOf_setNz rfl, flagsKept_setNz rfl, rfl, rfl, hframe, hcontrol⟩
  · exact ⟨sub_one_toNat s.y, rfl, nzOf_setNz rfl, flagsKept_setNz rfl, rfl, rfl, hframe, hcontrol⟩

/-- Settles O37: the shifted byte as a number, and the flags as C, then N and Z. -/
theorem shiftsOnTheAccumulator : Obligations.ShiftsOnTheAccumulator := by
  intro s
  have hasl := aslAlu_flags s.a s.p
  have hlsr := lsrAlu_flags s.a s.p
  have hrol := rolAlu_flags s.a s.p
  have hror := rorAlu_flags s.a s.p
  refine ⟨runsTo_executeAcc rfl ?_, runsTo_executeAcc rfl ?_, runsTo_executeAcc rfl ?_,
    runsTo_executeAcc rfl ?_⟩
  all_goals rintro t rfl hframe hcontrol
  · exact ⟨aslAlu_toNat s.a s.p, getFlag_c_setNz_setFlag_c hasl, nzOf_setNz hasl, flagsKept_setNz_setFlag_c hasl,
      rfl, rfl, rfl, hframe, hcontrol⟩
  · exact ⟨lsrAlu_toNat s.a s.p, getFlag_c_setNz_setFlag_c hlsr, getFlag_n_lsrAlu .., nzOf_setNz hlsr,
      flagsKept_setNz_setFlag_c hlsr, rfl, rfl, rfl, hframe, hcontrol⟩
  · exact ⟨rolAlu_toNat s.a s.p, getFlag_c_setNz_setFlag_c hrol, nzOf_setNz hrol, flagsKept_setNz_setFlag_c hrol,
      rfl, rfl, rfl, hframe, hcontrol⟩
  · exact ⟨rorAlu_toNat s.a s.p, getFlag_c_setNz_setFlag_c hror, nzOf_setNz hror, flagsKept_setNz_setFlag_c hror,
      rfl, rfl, rfl, hframe, hcontrol⟩

/-- Settles O38: as O37, on the byte at the effective address. -/
theorem shiftsOnMemory : Obligations.ShiftsOnMemory := by
  intro nn ll hh s
  refine ⟨fun f hf => runsTo_executeRmw registersOnly_asl (exec_aslForms nn ll hh s f hf) ?_,
    fun f hf => runsTo_executeRmw registersOnly_lsr (exec_lsrForms nn ll hh s f hf) ?_,
    fun f hf => runsTo_executeRmw registersOnly_rol (exec_rolForms nn ll hh s f hf) ?_,
    fun f hf => runsTo_executeRmw registersOnly_ror (exec_rorForms nn ll hh s f hf) ?_⟩
  all_goals rintro t rfl hframe
  · have hp := aslAlu_flags (memByte f.2 .rmw s) s.p
    exact ⟨_, aslAlu_toNat .., getFlag_c_setNz_setFlag_c hp, nzOf_setNz hp, flagsKept_setNz_setFlag_c hp,
      rfl, rfl, rfl, rfl, hframe⟩
  · have hp := lsrAlu_flags (memByte f.2 .rmw s) s.p
    exact ⟨_, lsrAlu_toNat .., getFlag_c_setNz_setFlag_c hp, getFlag_n_lsrAlu .., nzOf_setNz hp,
      flagsKept_setNz_setFlag_c hp, rfl, rfl, rfl, rfl, hframe⟩
  · have hp := rolAlu_flags (memByte f.2 .rmw s) s.p
    exact ⟨_, rolAlu_toNat .., getFlag_c_setNz_setFlag_c hp, nzOf_setNz hp, flagsKept_setNz_setFlag_c hp,
      rfl, rfl, rfl, rfl, hframe⟩
  · have hp := rorAlu_flags (memByte f.2 .rmw s) s.p
    exact ⟨_, rorAlu_toNat .., getFlag_c_setNz_setFlag_c hp, nzOf_setNz hp, flagsKept_setNz_setFlag_c hp,
      rfl, rfl, rfl, rfl, hframe⟩

/-- Settles O39: the frame is the executor's, whatever the body is. -/
theorem rmwWritesTheUnmodifiedByteFirst : Obligations.RmwWritesTheUnmodifiedByteFirst := by
  intro nn ll hh s
  simp only [rmwForms, List.forall_mem_append, and_assoc]
  refine ⟨fun f hf => runsTo_executeRmw registersOnly_asl (exec_aslForms nn ll hh s f hf) ?_,
    fun f hf => runsTo_executeRmw registersOnly_lsr (exec_lsrForms nn ll hh s f hf) ?_,
    fun f hf => runsTo_executeRmw registersOnly_rol (exec_rolForms nn ll hh s f hf) ?_,
    fun f hf => runsTo_executeRmw registersOnly_ror (exec_rorForms nn ll hh s f hf) ?_,
    fun f hf => runsTo_executeRmw registersOnly_inc (exec_incForms nn ll hh s f hf) ?_,
    fun f hf => runsTo_executeRmw registersOnly_dec (exec_decForms nn ll hh s f hf) ?_,
    fun f hf => runsTo_executeRmw registersOnly_sloBody (exec_sloForms nn ll hh s f hf) ?_,
    fun f hf => runsTo_executeRmw registersOnly_rlaBody (exec_rlaForms nn ll hh s f hf) ?_,
    fun f hf => runsTo_executeRmw registersOnly_sreBody (exec_sreForms nn ll hh s f hf) ?_,
    fun f hf => runsTo_executeRmw registersOnly_rraBody (exec_rraForms nn ll hh s f hf) ?_,
    fun f hf => runsTo_executeRmw registersOnly_dcpBody (exec_dcpForms nn ll hh s f hf) ?_,
    fun f hf => runsTo_executeRmw registersOnly_iscBody (exec_iscForms nn ll hh s f hf) ?_⟩
  all_goals exact fun t _ hframe => ⟨_, hframe⟩

/-! ### The NOPs -/

/-- Settles O52: the body changes nothing, so the frame is all. -/
theorem nopsChangeOnlyPc : Obligations.NopsChangeOnlyPc := by
  intro o o1 o2 o3 o4 nn ll hh s
  simp only [List.forall_mem_cons, List.not_mem_nil, false_imp_iff, implies_true, and_true]
  refine ⟨⟨runsTo_executeImp .refl rfl ?_, runsTo_executeImp .refl rfl ?_⟩,
    fun f hf => runsTo_executeRead registersOnly_nopBody (exec_nopForms o1 o2 o3 o4 nn ll hh s f hf) ?_⟩
  case refine_3 =>
    rintro t rfl hframe
    exact ⟨⟨rfl, rfl, rfl, rfl, rfl⟩, hframe⟩
  all_goals
    rintro t rfl hframe hcontrol
    exact ⟨⟨rfl, rfl, rfl, rfl, rfl⟩, hframe, hcontrol⟩

/-! ### The combined read-modify-write instructions -/

/-- Settles O54: the shift gives C and the byte, the combination with A gives N and Z. -/
theorem shiftAndLogicCombine : Obligations.ShiftAndLogicCombine := by
  intro nn ll hh s
  refine ⟨fun f hf => runsTo_executeRmw registersOnly_sloBody (exec_sloForms nn ll hh s f hf) ?_,
    fun f hf => runsTo_executeRmw registersOnly_rlaBody (exec_rlaForms nn ll hh s f hf) ?_,
    fun f hf => runsTo_executeRmw registersOnly_sreBody (exec_sreForms nn ll hh s f hf) ?_⟩
  all_goals rintro t rfl hframe
  · have hq := aslAlu_flags (memByte f.2 .rmw s) s.p
    exact ⟨_, aslAlu_toNat _ s.p, rfl, getFlag_c_of_shift rfl hq, nzOf_setNz rfl, flagsKept_of_shift rfl hq,
      rfl, rfl, rfl, hframe⟩
  · have hq := rolAlu_flags (memByte f.2 .rmw s) s.p
    exact ⟨_, rolAlu_toNat _ s.p, rfl, getFlag_c_of_shift rfl hq, nzOf_setNz rfl, flagsKept_of_shift rfl hq,
      rfl, rfl, rfl, hframe⟩
  · have hq := lsrAlu_flags (memByte f.2 .rmw s) s.p
    exact ⟨_, lsrAlu_toNat _ s.p, rfl, getFlag_c_of_shift rfl hq, nzOf_setNz rfl, flagsKept_of_shift rfl hq,
      rfl, rfl, rfl, hframe⟩

/-- Settles O55: RRA adds with the C its rotate left; ISC subtracts with the incoming C. -/
theorem rotateAndAddCombine : Obligations.RotateAndAddCombine := by
  intro nn ll hh s
  refine ⟨fun f hf => runsTo_executeRmw registersOnly_rraBody (exec_rraForms nn ll hh s f hf) ?_,
    fun f hf => runsTo_executeRmw registersOnly_iscBody (exec_iscForms nn ll hh s f hf) ?_⟩
  all_goals intro t ht hframe
  · have hq := rorAlu_flags (memByte f.2 .rmw s) s.p
    subst ht
    exact ⟨_, rorAlu_toNat _ s.p, addResult_of_shift rfl rfl hq, flagsKept_adcAlu_of_shift rfl hq,
      rfl, rfl, rfl, hframe⟩
  · have hadd : AddResult s.a ((memByte f.2 .rmw s + 1) ^^^ 0xFF#8) (getFlag .c s.p) t := by
      subst ht
      exact addResult_of_adcAlu rfl rfl
    subst ht
    exact ⟨_, add_one_toNat .., hadd, subResult_of_addResult hadd, flagsKept_adcAlu rfl,
      rfl, rfl, rfl, hframe⟩

/-! ### The other illegal instructions -/

/-- Settles O56: ALR is LSR of A and the operand; ANC and ARR write their own C and V. -/
theorem immediateAndCombinations : Obligations.ImmediateAndCombinations := by
  intro o nn s
  refine ⟨runsTo_executeRead registersOnly_ancBody rfl ?_, runsTo_executeRead registersOnly_alrBody rfl ?_,
    runsTo_executeRead registersOnly_arrBody rfl ?_⟩
  all_goals rintro t rfl hframe
  · exact ⟨rfl, getFlag_c_ancAlu _ _ _, flagsKept_ancAlu rfl, nzOf_ancAlu rfl rfl, rfl, rfl, rfl, hframe⟩
  · have hp := lsrAlu_flags (s.a &&& nn) s.p
    exact ⟨lsrAlu_toNat _ s.p, getFlag_c_setNz_setFlag_c hp, getFlag_n_lsrAlu .., flagsKept_setNz_setFlag_c hp,
      nzOf_setNz hp, rfl, rfl, rfl, hframe⟩
  · exact ⟨rorAlu_toNat (s.a &&& nn) s.p, getFlag_c_arrAlu _ _ _, getFlag_v_arrAlu _ _ _, flagsKept_arrAlu rfl,
      nzOf_arrAlu rfl rfl, rfl, rfl, rfl, hframe⟩

/-- Settles O57: the value that A (and X for LXA) takes is computed bit by bit. -/
theorem magicConstantInstructions : Obligations.MagicConstantInstructions := by
  intro nn s
  refine ⟨runsTo_executeRead registersOnly_aneBody rfl ?_, runsTo_executeRead registersOnly_lxaBody rfl ?_⟩
  all_goals rintro t rfl hframe
  · refine ⟨⟨nzOf_setNz rfl, flagsKept_setNz rfl, rfl, rfl, hframe⟩, rfl, fun k => ?_⟩
    exact (BitVec.getLsbD_and ..).trans (by rw [BitVec.getLsbD_and, BitVec.getLsbD_or]; rfl)
  · refine ⟨⟨nzOf_setNz rfl, flagsKept_setNz rfl, rfl, rfl, hframe⟩, rfl, fun k => ?_⟩
    exact (BitVec.getLsbD_and ..).trans (by rw [BitVec.getLsbD_or]; rfl)

/-- Settles O58: SBX subtracts as a comparison does; LAS loads three registers with one byte. -/
theorem sbxAndLas : Obligations.SbxAndLas := by
  intro nn ll hh s
  refine ⟨runsTo_executeRead registersOnly_sbxBody rfl ?_, runsTo_executeRead registersOnly_lasBody rfl ?_⟩
  all_goals rintro t rfl hframe
  · refine ⟨?_, getFlag_c_setNz_setFlag_c rfl, nzOf_setNz rfl, flagsKept_setNz_setFlag_c rfl, rfl, rfl, rfl, hframe⟩
    rw [Nat.add_sub_assoc nn.isLt.le, Nat.add_comm]
    exact BitVec.toNat_sub ..
  · exact ⟨rfl, rfl, rfl, nzOf_setNz rfl, flagsKept_setNz rfl, rfl, hframe⟩

end Sys2Proof
end

section
/-! SUPPORT. The stores of R427 to R431: the byte and, on a page crossing, the address it makes; settles O59. -/

namespace Sys2Proof.Machine

/-- The address of a store of R427 with the byte `v`: on a crossing `v` is its high byte (R427). -/
def highStoreAddr (m : MemOperand) (v low index : Byte) (s : State) : Word :=
  if crosses low index then addrOf (256 * v.toNat + (low.toNat + index.toNat) % 256) else effAddr m s

/-- The byte of a store of R427: the register and the base's high byte plus 1. -/
def highStoreByte (reg base : Byte) : Byte := reg &&& (base + 1)

/-- What the resolver says of a mode with an indexed base: `base`, `low` and `index` are what R134 adds. -/
structure IndexedBase (m : MemOperand) (base low index : Byte) (s : State) : Prop where
  baseHi : (resolve m .write s).1.baseHi = base
  cross : (resolve m .write s).1.cross = crosses low index
  ea : effAddr m s = addrOf ((256 * base.toNat + low.toNat + index.toNat) % 65536)

theorem indexedBase_aby (ll hh : Byte) (s : State) : IndexedBase (.aby ll hh) hh ll s.y s :=
  ⟨rfl, crosses_eq ll s.y, rfl⟩

theorem indexedBase_abx (ll hh : Byte) (s : State) : IndexedBase (.abx ll hh) hh ll s.x s :=
  ⟨rfl, crosses_eq ll s.x, rfl⟩

theorem indexedBase_izy (nn : Byte) (s : State) : IndexedBase (.izy nn)
    (s.answerAt 2 (addrOf ((nn.toNat + 1) % 256))) (s.answerAt 1 (addrOf nn.toNat)) s.y s :=
  ⟨(resolve_izy_base nn .write s).1, (resolve_izy_base nn .write s).2, rfl⟩

/-- The low byte of an indexed address is the low byte of the sum. -/
theorem word_loByte_effAddr {m : MemOperand} {base low index : Byte} {s : State}
    (h : IndexedBase m base low index s) (v : Byte) :
    word v (loByte (effAddr m s)) = addrOf (256 * v.toNat + (low.toNat + index.toNat) % 256) := by
  rw [word_eq, loByte_toNat, h.ea, addrOf_toNat]
  congr 2
  omega

/-- A store of R427 after the accesses of its mode. -/
theorem executeHighStore_eq {m : MemOperand} {base low index : Byte} {s : State}
    (h : IndexedBase m base low index s) (reg : State → Byte) :
    executeHighStore m reg s =
      let u := afterReads (modeAccesses m .write s) (memSize m) s
      let v := highStoreByte (reg u) base
      busWrite (highStoreAddr m v low index s) v u := by
  simp only [executeHighStore, h.baseHi, h.cross, resolve_state, resolve_ea, word_loByte_effAddr h]
  rfl

/-- The effect of a store of R427: one write at its address, and no register or flag changes. -/
theorem executeHighStore_effect {m : MemOperand} {base low index : Byte} {s : State}
    (h : IndexedBase m base low index s) (reg : State → Byte) :
    let v := highStoreByte (reg (afterReads (modeAccesses m .write s) (memSize m) s)) base
    let addr := highStoreAddr m v low index s
    let t := executeHighStore m reg s
    (t.pc = s.pc + addrOf (memSize m) ∧ Accesses (modeAccesses m .write s ++ [wr addr v]) s t ∧
      StoresOnly addr v s t ∧ SameControl s t ∧ t.a = s.a ∧ t.x = s.x ∧ t.y = s.y ∧ t.p = s.p) ∧
      t.sp = s.sp := by
  rw [executeHighStore_eq h]
  obtain ⟨hpc, hacc, hstore, hcontrol⟩ := frame_busWrite_afterReads m _ _ s
  exact ⟨⟨hpc, hacc, hstore, hcontrol, rfl, rfl, rfl, rfl⟩, rfl⟩

end Sys2Proof.Machine

namespace Sys2Proof

open Machine

/-- Settles O59: TAS stores the SP it has just set; the others store registers that no access changes. -/
theorem highByteStores : Obligations.HighByteStores := by
  intro nn ll hh s
  exact ⟨⟨_, rfl, executeHighStore_effect (indexedBase_aby ll hh s) saxByte⟩,
    ⟨_, rfl, executeHighStore_effect (indexedBase_izy nn s) saxByte⟩,
    ⟨_, rfl, executeHighStore_effect (indexedBase_aby ll hh s) State.x⟩,
    ⟨_, rfl, executeHighStore_effect (indexedBase_abx ll hh s) State.y⟩,
    ⟨_, rfl, executeHighStore_effect (indexedBase_aby ll hh { s with sp := s.a &&& s.x }) State.sp⟩⟩

end Sys2Proof
end
